-- ==== Sys2Proof/Word.lean ====
section
/-! DEFINITION. The bytes and words of the bus and the air, and the numbers of windows and apply groups
(spec/00_scope.md "Conventions"; spec/02 section 2; spec/05 R74). -/

namespace Sys2Proof

/-- One byte: a bus lane, or one byte of a frame. -/
abbrev Byte := BitVec 8

/-- One 16-bit word of the car controller's bus. -/
abbrev Word := BitVec 16

/-- A window number, 0 to 31 (02). Window 0 is the mailbox window; places 1 to 31 hold definitions. -/
abbrev WinNo := Fin 32

/-- An apply group number: 0 is ungrouped, 1 to 7 are groups (R22, R74). -/
abbrev GroupNo := Fin 8

/-- A set of alert conditions, one bit each (R164, R175: bit 0 LINK_UP to bit 11 MAILBOX_DONE). -/
abbrev AlertSet := BitVec 12

end Sys2Proof
end

