-- ==== Sys2Proof/Config.lean ====
section
/-! DEFINITION. The sizes the spec fixes, the default radio parameters, and the free values: constants with
no body, for values the spec leaves open (notes/assumptions/8.md). -/

namespace Sys2Proof.Config

/-- Free value: a byte of the stored profile that the spec names spare, or that belongs to a field the
definition does not hold (R22, R181). Nothing fixes it. -/
opaque freeByte : Nat → Byte

/-- Free value: whether a store whose write was cut short reads as erased (ABSENT) or fails its CRC
(INVALID); R170 allows both. -/
opaque tornReadsErased : Nat → Bool

/-- Free value: how far the write of the store had come when a reset or the 300 ms limit cut it short: 0 not yet erased, 1
erased and not completely written, 2 written whole (R170). -/
opaque writeReached : Nat → Fin 3

/-- Capture FIFO depth (R14). -/
abbrev fifoDepth : Nat := 64

/-- The occupancy at which CAPTURE_NEAR is raised (R15). -/
abbrev fifoNear : Nat := 48

/-- Journal capacity (R58). -/
abbrev journalRoom : Nat := 48

/-- The longest run of granules one journal entry spans (R58). -/
abbrev maxSpan : Nat := 14

/-- Bytes of an uplink frame's body left for records (04 section 4.3, 08 section 8.2). -/
abbrev frameRoom : Nat := 249

/-- Sent-frame list capacity (R137). -/
abbrev sentRoom : Nat := 32

/-- Uplink frames the part sends in one cycle at most (R134). -/
abbrev framesPerCycle : Nat := 16

/-- Neighbour table places (R109). -/
abbrev neighbourRoom : Nat := 12

/-- Granules in the image pool (R26). -/
abbrev poolGranules : Nat := 2048

/-- Cycle-start events after which a staging is discarded (R83). -/
abbrev stagingLimit : Nat := 8

/-- Frames that can be held for delivery (R142). -/
abbrev deliveryRoom : Nat := 2

/-- What an unlisted byte of the image pool and of the window 0 image reads as: start-up zeroes them (R172). -/
abbrev imageDefault : Byte := 0

/-- What an unlisted byte of the Profile Store reads as: erased store (R169). -/
abbrev storeDefault : Byte := 0xFF

end Sys2Proof.Config
end

