-- ==== Sys2Proof/Syntax.lean ====
section
/-! DEFINITION. The commands of the block: one constructor of `Instr` per row of spec/opcode_table.json, and
the operands an event brings with it (notes/assumptions/10.md). -/

namespace Sys2Proof

/-- The straps as the pins show them at a reset release (00 "Pins, straps and clock"). -/
structure Straps where
  mb : BitVec 4
  paren : Bool
  parodd : Bool
deriving DecidableEq, Repr

/-- One bus cycle's word address, data, lane enables and lane parity: what the C-port presents for a write,
what the memory presents for a read (R1, R2, R3). -/
structure BusCycle where
  addr : BitVec 23
  data : Word
  low : Bool
  high : Bool
  parLow : Bool
  parHigh : Bool
deriving DecidableEq, Repr

/-- The commands, in the order of spec/opcode_table.json. -/
inductive Instr where
  /-- POWER_ON (R20): the supply comes up. -/
  | powerOn
  /-- RESET_ASSERT (R20): RESET# goes low. -/
  | resetAssert
  /-- BYPASS_ASSERT (R20): BYPASS# goes low. -/
  | bypassAssert
  /-- BYPASS_RELEASE (R20), with the straps as they stand. -/
  | bypassRelease (straps : Straps)
  /-- RESET_RELEASE (R172), with the straps as they stand. -/
  | resetRelease (straps : Straps)
  /-- POOL_TEST_END (R172): the start-up pool test completes; `failed` when any granule failed. -/
  | poolTestEnd (failed : Bool)
  /-- C_PORT_WRITE (R12). -/
  | cPortWrite (c : BusCycle)
  /-- C_PORT_READ (R3): address and lane enables of the cycle, data and parity as the memory presents them. -/
  | cPortRead (c : BusCycle)
  /-- DRAIN_STEP (R39). -/
  | drainStep
  /-- UNKNOWN_COMMAND (R147). -/
  | unknownCommand
  /-- SETW (R153). -/
  | setw
  /-- ENBW (R154). -/
  | enbw
  /-- DISW (R154). -/
  | disw
  /-- DELW (R154). -/
  | delw
  /-- QRYW (R155). -/
  | qryw
  /-- PUSH (R55). -/
  | push
  /-- PEEK (R156). -/
  | peek
  /-- SETID (R157). -/
  | setid
  /-- JOIN (R157). -/
  | join
  /-- LEAVE (R130). -/
  | leave
  /-- HOLD (R71). -/
  | hold
  /-- RESUME (R71). -/
  | resume
  /-- NBRS (R155). -/
  | nbrs
  /-- CNTR (R158). -/
  | cntr
  /-- ALRT (R158). -/
  | alrt
  /-- PSAV (R170). -/
  | psav
  /-- PLOD (R171). -/
  | plod
  /-- TEST_MINOR_1 (R160). -/
  | testMinor1
  /-- TEST_MINOR_2 (R160). -/
  | testMinor2
  /-- RSET (R161). -/
  | rset
  /-- GRANULE_CLEAR (R28). -/
  | granuleClear
  /-- PEEK_GRANULE_READ (R156). -/
  | peekGranuleRead
  /-- POOL_TEST_OPERATION (R160); `good` when a read-back agrees with what was written. -/
  | poolTestOperation (good : Bool)
  /-- PROFILE_WRITE_END (R170), with what the store holds when it is read back. -/
  | profileWriteEnd (readBack : List Byte)
  /-- PROFILE_WRITE_TIMEOUT (R170). -/
  | profileWriteTimeout
  /-- SLOT_START (R92). -/
  | slotStart
  /-- NEIGHBOUR_DROP (R114), naming the node. -/
  | neighbourDrop (node : Nat)
  /-- HOLDOVER_EXPIRY (R102). -/
  | holdoverExpiry
  /-- JOIN_UNANSWERED (R123). -/
  | joinUnanswered
  /-- JOIN_WAIT_EXPIRY (R123). -/
  | joinWaitExpiry
  /-- FRAME_LOST (R139): the first record of the list that is past its deadline. -/
  | frameLost
  /-- RECORD_READ (R136). -/
  | recordRead
  /-- FRAME_CUT_OFF (R136). -/
  | frameCutOff
  /-- TRANSMISSION_END (R107). -/
  | transmissionEnd
  /-- CYCLE_START (R93). -/
  | cycleStart
  /-- SUPPRESSED_WRAP (R93). -/
  | suppressedWrap
  /-- REFRESH (R54), naming the window. -/
  | refresh (win : WinNo)
  /-- AGE_OUT (R68). -/
  | ageOut
  /-- WINDOW_EXPIRY (R86), naming the window. -/
  | windowExpiry (win : WinNo)
  /-- REFILL_EXPIRY (R87), naming the window. -/
  | refillExpiry (win : WinNo)
  /-- STAGING_LIMIT (R83), naming the group. -/
  | stagingLimit (group : GroupNo)
  /-- AUTO_CLEAR (R166). -/
  | autoClear
  /-- BEACON (R111), with the bytes taken from FRX, CRC included. -/
  | beacon (bytes : List Byte)
  /-- REALIGN (R98), with the bytes of the beacon that brings the run count to 3. -/
  | realign (bytes : List Byte)
  /-- DOWNLINK_FRAME (R140), with the bytes taken from FRX. -/
  | downlinkFrame (bytes : List Byte)
  /-- BAD_CRC_FRAME (R133), with the bytes taken from FRX. -/
  | badCrcFrame (bytes : List Byte)
  /-- FOREIGN_FRAME (R133), with the bytes taken from FRX. -/
  | foreignFrame (bytes : List Byte)
  /-- DELIVERY_RECORD (R76): the next `moves` moves of the record's grant, each one granule write or the step
  after the last granule (R78, R81, R82). -/
  | deliveryRecord (moves : Nat)
  /-- LOCK_RISE (R118). -/
  | lockRise
  /-- LOCK_FALL (R119). -/
  | lockFall
  /-- STARTING_TIMEOUT (R118). -/
  | startingTimeout
  /-- END_OF_START_UP (R172). -/
  | endOfStartUp
  /-- START_DELIMITER (R106): `ticks` REFCLK ticks pass, then the delimiter is completed at received level
  `level`. -/
  | startDelimiter (ticks : Nat) (level : Byte)
deriving DecidableEq, Repr

end Sys2Proof
end

