-- ==== Sys2Proof/Decode.lean ====
section
/-! DEFINITION. The commands that a word spells by the bits of spec/opcode_table.json. -/

namespace Sys2Proof

/-- Every row of spec/opcode_table.json has an empty "fields" list and no fixed bits, so no word spells a
command (notes/assumptions/9.md). The mailbox's own command codes are words of window 0 and are read by the
Mailbox Unit (R152). -/
def decodeTableWord (_nbits _w : Nat) : Option Instr := none

end Sys2Proof
end

