-- ==== Sys2Proof/Machine/State.lean ====
section
/-! DEFINITION. The state of the block as plain data, block by block as the spec names them, the reasons a
command could stop, and the state after reset (spec/01 to spec/12). -/

namespace Sys2Proof.Machine

/-- No rule of the spec stops the part, so there is no fault. -/
inductive Fault where
deriving DecidableEq, Repr

/-- Why a command has no meaning. -/
inductive Refusal where
  /-- Raised by `exec` for a row that has no meaning yet. Safe: the run stops. -/
  | notModelled (mnemonic : String)
deriving DecidableEq, Repr

/-! ### Memory -/

/-- An addressed memory as (address, byte) pairs, addresses strictly rising, no entry equal to what an unlisted
address reads as (`Memory.wf`, Machine/Ops.lean). -/
abbrev Memory := List Host.Cell

/-! ### Resets, straps and pins -/

/-- The reset kinds (00 "Resets"). -/
inductive ResetKind where
  | powerOn | resetPin | bypass | rset
deriving DecidableEq, Repr

/-- Where start-up stands after a release (R172). -/
inductive Phase where
  /-- Step 1, the pool test, runs. -/
  | poolTest
  /-- Steps 2 to 5 are still to be taken. -/
  | startUp
  /-- Start-up has ended. -/
  | running
deriving DecidableEq, Repr

/-- Reset control: which resets hold the part, the kind begun last, and start-up (00 "Resets", R20, R172). -/
structure ResetUnit where
  /-- The power-on reset has not been released. -/
  supply : Bool
  /-- RESET# is low. -/
  pinLow : Bool
  /-- BYPASS# is low. -/
  bypassLow : Bool
  kind : ResetKind
  phase : Phase
  /-- A pool test is owed: power-on, or a reset that ended the test, and no completion since (R172 step 1). -/
  testOwed : Bool
deriving DecidableEq, Repr

/-- The cycle last carried through and what the C-port returned for it (R2, R3, R6). -/
structure BusPins where
  write : Bool
  cycle : BusCycle
  cData : Word
  cParLow : Bool
  cParHigh : Bool
deriving DecidableEq, Repr

/-! ### The Bus Tap -/

/-- A captured write (R13). -/
structure Captured where
  win : WinNo
  addr : BitVec 23
  data : Word
  low : Bool
  high : Bool
  goodLow : Bool
  goodHigh : Bool
deriving DecidableEq, Repr

/-- A Capture FIFO entry (R14): a WRITE (R13) or a LOSS with its window set (R17). -/
inductive FifoEntry where
  | write (c : Captured)
  | loss (windows : BitVec 32)
deriving DecidableEq, Repr

/-- A learning request (R19): the lanes are those enabled and parity-good. -/
structure LearnRequest where
  win : WinNo
  addr : BitVec 23
  data : Word
  low : Bool
  high : Bool
deriving DecidableEq, Repr

/-- The Bus Tap's own state (R14, R16, R19). -/
structure Tap where
  fifo : List FifoEntry
  loss : BitVec 32
  peak : Nat
  learn : Option LearnRequest
deriving DecidableEq, Repr

/-! ### Windows and images -/

/-- The mode of a PUBLISH window (R22). -/
inductive PubMode where
  | onWrite
  | onTrigger (offset : Nat)
deriving DecidableEq, Repr

/-- The expiry action of a SUBSCRIBE window; the fallback word is held with FALLBACK only (R22). -/
inductive ExpiryAction where
  | hold
  | fallback (word : Word)
  | release
deriving DecidableEq, Repr

/-- The fields a PUBLISH definition holds (R22). -/
structure PublishDef where
  topic : Nat
  cls : Nat
  mode : PubMode
  refresh : Nat
deriving DecidableEq, Repr

/-- The fields a SUBSCRIBE definition holds (R22). -/
structure SubscribeDef where
  topic : Nat
  hold : Nat
  action : ExpiryAction
  releaseOnWrite : Bool
  group : GroupNo
deriving DecidableEq, Repr

/-- The kind of a window with the fields held for it (R22). -/
inductive DefBody where
  | publish (d : PublishDef)
  | subscribe (d : SubscribeDef)
  | status
deriving DecidableEq, Repr

/-- A window definition (R22); its number is its place. -/
structure Definition where
  base : Nat
  length : Nat
  body : DefBody
  startEnabled : Bool
deriving DecidableEq, Repr

/-- The state of a defined window (02 section 2.4); a FREE place holds no window. -/
inductive WindowState where
  | idle | pending | live | closing
deriving DecidableEq, Repr

/-- The publication state of a granule (03 section 3.6). -/
inductive GranState where
  | idle | wanted | waiting | inFlight | inFlightAgain
deriving DecidableEq, Repr

/-- What the Image Unit keeps for a PUBLISH window beside its bytes (R56). -/
structure Publication where
  /-- Known flag of each shadow byte (R42). -/
  known : List Bool
  /-- DIRTY flag of each shadow granule, ON_TRIGGER only (R49). -/
  dirty : List Bool
  /-- Filled flag of each snapshot granule, ON_TRIGGER only (R48). -/
  filled : List Bool
  /-- Publication state of each granule of the publishing image (R52). -/
  states : List GranState
  revision : Word
  countdown : Nat
  backlog : Bool
deriving DecidableEq, Repr

/-- Overlay states (R73). -/
inductive OverlayState where
  | empty | fresh | expired
deriving DecidableEq, Repr

/-- What the Overlay Unit keeps for a SUBSCRIBE window beside its bytes (R73). -/
structure Overlay where
  present : List Bool
  staged : List Bool
  /-- The second granule map holds the active image (R82). -/
  swapped : Bool
  revision : Option Word
  age : Nat
  state : OverlayState
deriving DecidableEq, Repr

/-- A defined window: its definition, the granule maps of its images (R26, R28), its entry fence (R41). -/
structure Window where
  state : WindowState
  defn : Definition
  /-- Shadow or overlay map. -/
  mapA : List Nat
  /-- Snapshot or staging map. -/
  mapB : List Nat
  fence : Nat
  pub : Publication
  ov : Overlay
deriving DecidableEq, Repr

/-- The image pool with its free list (R26, R27, R29). -/
structure Pool where
  mem : Memory
  free : List Nat
  usable : Bool
deriving DecidableEq, Repr

/-- The window 0 image and the parity-bad flag of each of its 128 words (R21, R46). -/
structure Win0 where
  mem : Memory
  bad : List Bool
deriving DecidableEq, Repr

/-- The requesters of the shared image port (R37). -/
inductive Requester where
  | drain | frame | mailbox
deriving DecidableEq, Repr

/-- A drain step in progress: what it took when its grant began (R39). -/
structure DrainStep where
  /-- The learning request that the slot held. -/
  learn : Option LearnRequest
  /-- The FIFO held an entry, and the step took its head, which leaves the FIFO at the step's end (R14). -/
  entry : Bool
deriving DecidableEq, Repr

/-- A grant of the shared port in progress (R37); the Drain Engine's is its drain step (R39). -/
inductive PortGrant where
  | drain (d : DrainStep)
  | frame
  | mailbox
deriving DecidableEq, Repr

/-! ### The Publication Journal -/

/-- A journal entry (R57). It is IN_FLIGHT exactly when it holds a sequence. -/
structure Entry where
  win : WinNo
  first : Nat
  last : Nat
  cls : Nat
  attempts : Nat
  age : Nat
  seq : Option (BitVec 8)
deriving DecidableEq, Repr

/-- The journal: its entries in list order and the publication HOLD flag (R57, R71). -/
structure Journal where
  entries : List Entry
  hold : Bool
deriving DecidableEq, Repr

/-- An apply group's state (R74). -/
structure Group where
  revision : Option Word
  staging : Option Word
  age : Nat
deriving DecidableEq, Repr

/-! ### The Cycle Timer -/

/-- Timing states (06 section 6.4). -/
inductive Timing where
  | free | locked | holdover
deriving DecidableEq, Repr

/-- The Cycle Timer (R91 to R101). -/
structure Timer where
  phi : BitVec 40
  trim : Int
  cycle : Word
  timing : Timing
  holdover : Nat
  run : Nat
  /-- The last slot started, L (R92). -/
  last : Nat
  suppress : Bool
  coarse : Bool
  taken : Bool
deriving DecidableEq, Repr

/-- The radio parameters (R103, R110). -/
structure Params where
  f : Nat
  s : Nat
  w : Nat
  p : Nat
  d : Nat
  u : Nat
  hm : Nat
  k : Nat
  ls : Nat
  hl : Nat
  kp : Nat
  ki : Nat
  lam : Nat
deriving DecidableEq, Repr

/-! ### The Link Controller -/

/-- Roles of a neighbour (R109). -/
inductive Role where
  | none | serving | target
deriving DecidableEq, Repr

/-- A neighbour table entry (R109). `late` says that the heard flag was set by a beacon of the second half of
the cycle (R115). -/
structure Neighbour where
  node : Nat
  phase : Nat
  score : Nat
  misses : Nat
  heard : Bool
  late : Bool
  sample : Nat
  accepting : Bool
  closing : Bool
  role : Role
  bar : Nat
deriving DecidableEq, Repr

/-- Link states (07 section 7.4). -/
inductive LinkState where
  | off | starting | search | joining | served | handoff
deriving DecidableEq, Repr

/-- Grant kinds (R178). -/
inductive GrantKind where
  | up | down | joinAccept | joinRefuse | release
deriving DecidableEq, Repr

/-- A grant entry of a beacon (R178). -/
structure GrantEntry where
  car : Nat
  first : Nat
  count : Nat
  kind : GrantKind
deriving DecidableEq, Repr

/-- A kept beacon (R112). `late` as for a neighbour. -/
structure Kept where
  accepting : Bool
  closing : Bool
  grants : List GrantEntry
  late : Bool
deriving DecidableEq, Repr

/-- A grant of the cycle's grant list (R124): slots `first` to `last`. -/
structure Grant where
  up : Bool
  dest : Nat
  first : Nat
  last : Nat
deriving DecidableEq, Repr

/-- The join request state (R121). -/
structure JoinRequest where
  tries : Nat
  wait : Nat
  due : Option Nat
  sent : Bool
  ends : Nat
deriving DecidableEq, Repr

/-- The Link Controller (R109 to R131). -/
structure Link where
  state : LinkState
  table : List Neighbour
  grants : List Grant
  keptServing : Option Kept
  keptTarget : Option Kept
  join : JoinRequest
  persist : Nat
  lastTested : Option Nat
  startCount : Nat
  prevNode : Nat
  leave : Bool
  best : Option (Nat × Nat)
  lfsr : Word
  autoJoin : Bool
  car : Nat
  /-- The LOCK level last sampled (R105, R118). -/
  lock : Bool
deriving DecidableEq, Repr

/-! ### The Frame Engine -/

/-- A sent-frame record (R137); an entry carried is named by its window and first granule. -/
structure SentFrame where
  seq : BitVec 8
  cycle : Word
  carried : List (WinNo × Nat)
deriving DecidableEq, Repr

/-- A frame being taken from FRX: what was sampled at its delimiter (R106), the destination of the DOWN grant
that covers its slot (R140), and whether a cycle-start event came since (R112, R115). -/
structure Reception where
  phi : BitVec 40
  level : Nat
  down : Option Nat
  wrapped : Bool
deriving DecidableEq, Repr

/-- A frame being sent, its start delimiter (R104) before the body: the body bytes ready so far (R107, R136). -/
structure Transmission where
  body : List Byte
deriving DecidableEq, Repr

/-- A record read that waits for its grant (R136). `ofFrame` while its frame is still on the air; `purged` once
its window has been purged (R64). -/
structure ReadJob where
  win : WinNo
  first : Nat
  last : Nat
  bestEffort : Bool
  ofFrame : Bool
  purged : Bool
deriving DecidableEq, Repr

/-- A delivery record (R178); the group bits are not used (R76). -/
structure Delivery where
  topic : Nat
  revision : Word
  first : Nat
  data : List (List Byte)
deriving DecidableEq, Repr

/-- The record whose grant is in progress: the head of the first held frame. `staging` is the staging revision
that R80 chose, absent for an ungrouped window. -/
structure Writing where
  win : WinNo
  written : Nat
  staging : Option Word
deriving DecidableEq, Repr

/-- The Frame Engine (R132 to R144). -/
structure FrameEngine where
  nextSeq : BitVec 8
  sentInCycle : Nat
  sent : List SentFrame
  rxBase : BitVec 8
  rxMap : Word
  ackPending : Bool
  freshStart : Bool
  /-- The setting of the slot in progress (R106, R117): listening, and the DOWN grant that covers it. -/
  listening : Bool
  down : Option Nat
  rx : Option Reception
  tx : Option Transmission
  /-- What went out on FTX last, from the start delimiter on: a frame whole with its CRC, or cut off at a record. -/
  ftx : List Byte
  reads : List ReadJob
  delivery : List (List Delivery)
  writing : Option Writing
deriving DecidableEq, Repr

/-! ### The Mailbox Unit -/

/-- Mailbox states (09 section 9.1). -/
inductive MailboxState where
  | ready | busy | done | fail
deriving DecidableEq, Repr

/-- Result codes (R149), in the order of their values 0x00 to 0x0F. -/
inductive ResultCode where
  | ok | unknownCommand | badParam | windowState | noRoom | overlap | topicInUse | linkState | noIdentity
  | parity | captureLost | profileInvalid | profileWrite | testFailed | radioFault | imageFault
deriving DecidableEq, Repr

/-- The response block (R145). -/
structure Response where
  result : ResultCode
  echo : Word
  prevCommand : Word
  prevResult : ResultCode
  overrun : Bool
  lostWrite : Bool
  data : List Byte
deriving DecidableEq, Repr

/-- A granule that SETW or PLOD still has to clear (R28): of the first or the second image of a window. -/
structure ClearItem where
  win : WinNo
  second : Bool
  gran : Nat
deriving DecidableEq, Repr

/-- A PEEK in progress (R156): the image's code (R175), the granules still to read, the bytes and flags read. -/
structure PeekJob where
  win : WinNo
  image : Nat
  todo : List Nat
  bytes : List Byte
  flags : List Bool
deriving DecidableEq, Repr

/-- A TEST minor 1 in progress (R160): the granule, which of its five operations is next, and the failures. -/
structure PoolTest where
  gran : Nat
  op : Nat
  /-- The granule under test has failed a read-back. -/
  bad : Bool
  fails : Nat
  lowest : Option Nat
deriving DecidableEq, Repr

/-- What a BUSY command waits for (R148). -/
inductive Work where
  | none
  /-- The snapshot of the parameter words (R146). -/
  | snapshot
  /-- Its snapshot has been taken and its grant has ended; the checks and the effect come next (R147). -/
  | checks
  | clearing (todo : List ClearItem) (data : List Byte)
  | peek (j : PeekJob)
  | enbw (n : WinNo)
  | disw (n : WinNo)
  | join
  | leave
  | psav (profile : List Byte)
  | poolTest (t : PoolTest)
deriving DecidableEq, Repr

/-- The Mailbox Unit (R145). The snapshot lists parameter words 1 to 63 with their parity-bad flags. -/
structure Mailbox where
  state : MailboxState
  code : Word
  work : Work
  snapshot : List (Word × Bool)
  overrun : Bool
  lostWrite : Bool
  prevCommand : Word
  prevResult : ResultCode
  response : Response
deriving DecidableEq, Repr

/-! ### The Status Unit and the Profile Store -/

/-- The alert conditions, in the order of their bits (R175). -/
inductive Alert where
  | linkUp | linkLost | handoffDone | captureNear | captureLoss | parity | journalFull | windowExpired
  | groupDropped | trimLimit | radioFault | mailboxDone
deriving DecidableEq, Repr

/-- The counters, in the order of R167. -/
inductive Counter where
  | captured | lossEntries | parityErrors | learned | created | coalesced | sent | acked | lost | dropped
  | agedOut | downlinks | badCrc | applied | discarded | groupsApplied | groupsDropped | handoffs
  | joinsRefused | beaconsMissed | realigns | nodesIgnored | grantsClipped | slotsUnused
deriving DecidableEq, Repr

/-- What start-up or PSAV found the store to be (R169). -/
inductive StoreCondition where
  | valid | absent | invalid
deriving DecidableEq, Repr

/-- The Status Unit (R164, R166, R167, R169). -/
structure Status where
  pending : AlertSet
  record : AlertSet
  signal : AlertSet
  autoClear : Bool
  served : Nat
  counters : Vector (BitVec 32) 24
  store : StoreCondition
deriving DecidableEq, Repr

/-- The nonvolatile Profile Store (R169, R170): its bytes, or `torn` when an erase and write did not end with a
read-back. -/
inductive Store where
  | holds (m : Memory)
  | torn
deriving DecidableEq, Repr

/-! ### Shares of a timer event -/

/-- The blocks' shares of a cycle-start event (R93) or a slot-start event (R92) that has begun. -/
inductive Duty where
  /-- The windows that were PENDING or CLOSING when the event came (R31, R33, R35), and the local cycle number of the
  event (R93, R154). -/
  | windows (waiting : List WinNo) (cycle : Word)
  /-- Heard flags, bars, kept beacons, grant list, the frames' count, LEAVE (R112, R115, R124, R130, R134). -/
  | linkCycle
  /-- Journal ageing and its backlog scan (R61, R68). -/
  | journalAge
  /-- One window's refresh countdown (R54). -/
  | refresh (n : WinNo)
  /-- One window's overlay age (R85 to R87). -/
  | overlayAge (n : WinNo)
  /-- One group's staging age (R83). -/
  | stagingAge (g : GroupNo)
  /-- The served-cycle count (R166). -/
  | served
  /-- The miss of one neighbour whose beacon slot `phase` has ended (R114). -/
  | miss (phase : Nat) (node : Nat)
  /-- The STARTING count (R118). -/
  | starting
  /-- The Link Controller's processing of the beacon-phase end (07). -/
  | phaseEnd
  /-- The sent-frame loss deadline (R139). -/
  | lost
  /-- The holdover test (R101). -/
  | holdover
  /-- The settings, frames and join requests of the slot begun (R117, R134, R143). -/
  | slot (k : Nat)
deriving DecidableEq, Repr

/-! ### The whole state -/

/-- The block. -/
structure State where
  rst : ResetUnit
  /-- The straps as sampled at the last release (R20). -/
  straps : Straps
  /-- The levels at the strap pins, which the release of a reset samples (notes/assumptions/38.md). -/
  strapPins : Straps
  bus : Option BusPins
  tap : Tap
  places : Vector (Option Window) 32
  pool : Pool
  win0 : Win0
  /-- The requester granted last (R38). -/
  arbiter : Requester
  /-- The grant in progress; the port is free without one (R37). -/
  port : Option PortGrant
  journal : Journal
  groups : Vector Group 8
  timer : Timer
  params : Params
  link : Link
  fe : FrameEngine
  mbox : Mailbox
  status : Status
  store : Store
  due : List Duty
  freeCount : Nat
  pending : List Instr
deriving DecidableEq, Repr

/-! ### Reset values, block by block -/

/-- The Bus Tap after every reset kind (R20). -/
def Tap.reset : Tap := { fifo := [], loss := 0, peak := 0, learn := none }

/-- The window 0 image zeroed, its flags clear (R21). -/
def Win0.reset : Win0 := { mem := [], bad := List.replicate 128 false }

/-- The journal after every reset kind (R72). -/
def Journal.reset : Journal := { entries := [], hold := false }

/-- A group after every reset kind (R74, R90). -/
def Group.reset : Group := { revision := none, staging := none, age := 0 }

/-- The Cycle Timer after every reset kind (R108). -/
def Timer.reset : Timer :=
  { phi := 0, trim := 0, cycle := 0, timing := .free, holdover := 0, run := 0, last := 0,
    suppress := false, coarse := false, taken := false }

/-- The default parameters (R103, R110). -/
def Params.default : Params :=
  { f := 40, s := 2, w := 4, p := 24, d := 6, u := 64, hm := 20, k := 3, ls := 4,
    hl := 25, kp := 8, ki := 4, lam := 96 }

/-- No join request (R131). -/
def JoinRequest.clear : JoinRequest := { tries := 0, wait := 0, due := none, sent := false, ends := 0 }

/-- The Link Controller after every reset kind (R131). Car number, auto-join flag and shift register wait for
start-up (notes/assumptions/5.md). -/
def Link.reset : Link :=
  { state := .off, table := [], grants := [], keptServing := none, keptTarget := none,
    join := JoinRequest.clear, persist := 0, lastTested := none, startCount := 0, prevNode := 0,
    leave := false, best := none, lfsr := 0x0101, autoJoin := false, car := 0, lock := false }

/-- The Frame Engine and the frame port after every reset kind (R108, R144). DESIGN CHOICE (notes/assumptions/6.md): the
record of what went out on FTX last is emptied. -/
def FrameEngine.reset : FrameEngine :=
  { nextSeq := 0, sentInCycle := 0, sent := [], rxBase := 0, rxMap := 0, ackPending := false,
    freshStart := true, listening := false, down := none, rx := none, tx := none, ftx := [],
    reads := [], delivery := [], writing := none }

/-- A response block with no result. -/
def Response.empty : Response :=
  { result := .ok, echo := 0, prevCommand := 0, prevResult := .ok, overrun := false, lostWrite := false,
    data := [] }

/-- The Mailbox Unit after power-on, RESET# and BYPASS# (R145). -/
def Mailbox.reset : Mailbox :=
  { state := .ready, code := 0, work := .none, snapshot := [], overrun := false, lostWrite := false,
    prevCommand := 0, prevResult := .ok, response := Response.empty }

/-- The Status Unit after every reset kind (R168). -/
def Status.reset : Status :=
  { pending := 0, record := 0, signal := 0, autoClear := false, served := 0,
    counters := Vector.replicate 24 0, store := .absent }

/-- Reset control as power-on leaves it (R20). -/
def ResetUnit.powerOn : ResetUnit :=
  { supply := true, pinLow := false, bypassLow := false, kind := .powerOn,
    phase := .poolTest, testOwed := true }

/-- The part as power-on leaves it, still held in reset, with the store as a new part is delivered
(R20, R36, R169; notes/assumptions/2.md). -/
def State.reset : State :=
  { rst := ResetUnit.powerOn
    straps := { mb := 0, paren := false, parodd := false }
    strapPins := { mb := 0, paren := false, parodd := false }
    bus := none
    tap := Tap.reset
    places := Vector.replicate 32 none
    pool := { mem := [], free := List.range Config.poolGranules, usable := true }
    win0 := Win0.reset
    arbiter := .mailbox
    port := none
    journal := Journal.reset
    groups := Vector.replicate 8 Group.reset
    timer := Timer.reset
    params := Params.default
    link := Link.reset
    fe := FrameEngine.reset
    mbox := Mailbox.reset
    status := Status.reset
    store := .holds []
    due := []
    freeCount := 0
    pending := [] }

end Sys2Proof.Machine
end

