-- ==== Sys2Proof/Machine/Operands.lean ====
section
/-! DEFINITION. How operands are read and written: bytes and words in the two byte orders (00 "Conventions"), the
CRC-16 (R132), bus addresses and lanes (R1), and the codes of spec/12 (R174 to R178). -/

namespace Sys2Proof.Machine

/-! ### Bytes and words -/

/-- The byte on the low lane. -/
def lowByte (w : Word) : Byte := w.extractLsb' 0 8

/-- The byte on the high lane. -/
def highByte (w : Word) : Byte := w.extractLsb' 8 8

/-- The word with these bytes on its lanes. -/
def joinBytes (high low : Byte) : Word := high ++ low

/-- A number as one byte. -/
def byteOf (n : Nat) : Byte := BitVec.ofNat 8 n

/-- A flag as one byte: yes and no are written as 1 and 0 (R174). -/
def flagByte (b : Bool) : Byte := if b then 1 else 0

/-- A word as it lies on the bus: low byte first (12). -/
def busWord (w : Word) : List Byte := [lowByte w, highByte w]

/-- A 32-bit value on the bus: low word first (12). -/
def busLong (v : BitVec 32) : List Byte :=
  [v.extractLsb' 0 8, v.extractLsb' 8 8, v.extractLsb' 16 8, v.extractLsb' 24 8]

/-- A word on the air and in the store: most significant byte first (12). -/
def airWord (w : Word) : List Byte := [highByte w, lowByte w]

/-- Byte `i` of a list, 0 beyond its end. -/
def byteAt (b : List Byte) (i : Nat) : Byte := b.getD i 0

/-- The byte at `i` as a number. -/
def numAt (b : List Byte) (i : Nat) : Nat := (byteAt b i).toNat

/-- The word at `i`, most significant byte first. -/
def airWordAt (b : List Byte) (i : Nat) : Word := joinBytes (byteAt b i) (byteAt b (i + 1))

/-! ### CRC-16 -/

/-- One bit of the CRC-16 (R132). -/
def crcBit (r : Word) (b : Bool) : Word :=
  if (r.msb != b) then (r <<< 1) ^^^ 0x1021 else r <<< 1

/-- One byte of the CRC-16, most significant bit first (R132). -/
def crcByte (r : Word) (x : Byte) : Word :=
  [7, 6, 5, 4, 3, 2, 1, 0].foldl (fun r i => crcBit r (x.getLsbD i)) r

/-- The start delimiter of every frame on the port (R104). -/
def startDelimiter : Word := 0xA6C3

/-- The CRC-16 of a body: start 0xFFFF, no final inversion (R132). -/
def crc16 (body : List Byte) : Word := body.foldl crcByte 0xFFFF

/-! ### The bus -/

/-- The byte address of the low lane; the high lane's is one more (R1). -/
def lowAddr (a : BitVec 23) : Nat := 2 * a.toNat

/-- At least one lane takes part (R12). -/
def anyLane (c : BusCycle) : Bool := c.low || c.high

/-- The base of window 0 for a strap value (R4, R21). -/
def win0Base (mb : BitVec 4) : Nat := mb.toNat * 0x100000 + 0x0FFF00

/-! ### Windows 1 to 31 -/

/-- Places 1 to 31 in ascending number. -/
def places1to31 : List WinNo := (List.finRange 32).drop 1

/-- Groups 1 to 7 in ascending number. -/
def groups1to7 : List GroupNo := (List.finRange 8).drop 1

/-- The window number a parameter names, when it is 1 to 31 (R154). -/
def winNo? (n : Nat) : Option WinNo :=
  if h : n < 32 then (if 1 ≤ n then some ⟨n, h⟩ else none) else none

/-! ### Codes of spec/12 -/

/-- Result codes 0x00 to 0x0F (R149). -/
def ResultCode.code : ResultCode → Nat
  | .ok => 0x00 | .unknownCommand => 0x01 | .badParam => 0x02 | .windowState => 0x03 | .noRoom => 0x04
  | .overlap => 0x05 | .topicInUse => 0x06 | .linkState => 0x07 | .noIdentity => 0x08 | .parity => 0x09
  | .captureLost => 0x0A | .profileInvalid => 0x0B | .profileWrite => 0x0C | .testFailed => 0x0D
  | .radioFault => 0x0E | .imageFault => 0x0F

/-- The bit of an alert condition (R175). -/
def Alert.bit : Alert → Nat
  | .linkUp => 0 | .linkLost => 1 | .handoffDone => 2 | .captureNear => 3 | .captureLoss => 4 | .parity => 5
  | .journalFull => 6 | .windowExpired => 7 | .groupDropped => 8 | .trimLimit => 9 | .radioFault => 10
  | .mailboxDone => 11

/-- The set with one condition. -/
def Alert.mask (a : Alert) : AlertSet := 1#12 <<< a.bit

/-- The place of a counter: its number in R167 less 1. -/
def Counter.index : Counter → Fin 24
  | .captured => 0 | .lossEntries => 1 | .parityErrors => 2 | .learned => 3 | .created => 4 | .coalesced => 5
  | .sent => 6 | .acked => 7 | .lost => 8 | .dropped => 9 | .agedOut => 10 | .downlinks => 11 | .badCrc => 12
  | .applied => 13 | .discarded => 14 | .groupsApplied => 15 | .groupsDropped => 16 | .handoffs => 17
  | .joinsRefused => 18 | .beaconsMissed => 19 | .realigns => 20 | .nodesIgnored => 21 | .grantsClipped => 22
  | .slotsUnused => 23

/-- The link state's code (R177). -/
def LinkState.code : LinkState → Nat
  | .off => 0 | .starting => 1 | .search => 2 | .joining => 3 | .served => 4 | .handoff => 5

/-- The timing state's code (R177). -/
def Timing.code : Timing → Nat
  | .free => 0 | .locked => 1 | .holdover => 2

/-- The place state's code (R176): 0 is FREE. -/
def WindowState.code : WindowState → Nat
  | .idle => 1 | .pending => 2 | .live => 3 | .closing => 4

/-- The overlay state's code (R176). -/
def OverlayState.code : OverlayState → Nat
  | .empty => 0 | .fresh => 1 | .expired => 2

/-- The kind's code (R175, R176). -/
def DefBody.code : DefBody → Nat
  | .publish _ => 1 | .subscribe _ => 2 | .status => 3

/-- The role's code (R176). -/
def Role.code : Role → Nat
  | .none => 0 | .serving => 1 | .target => 2

/-- The grant kind with this code; the other codes are not read (R178, R179). -/
def grantKind? : Nat → Option GrantKind
  | 1 => some .up | 2 => some .down | 3 => some .joinAccept | 4 => some .joinRefuse | 5 => some .release
  | _ => none

/-- A revision as reported: whether present, and its value, 0 when absent (R176). -/
def revisionBytes (r : Option Word) : Byte × List Byte :=
  match r with
  | some v => (1, busWord v)
  | none => (0, [0, 0])

end Sys2Proof.Machine
end

