-- ==== Sys2Proof/Machine/Flags.lean ====
section
/-! DEFINITION. The flags: lane parity (R5, R6), the known, DIRTY, filled, present and staged flags of a window's
images and what is computed from them (R26, R43, R53, R79, R82), and revisions compared on their circle (R75). -/

namespace Sys2Proof.Machine

/-! ### Lane parity -/

/-- The data byte holds an odd number of ones. -/
def oddOnes (b : Byte) : Bool :=
  [0, 1, 2, 3, 4, 5, 6, 7].foldl (fun p i => p != b.getLsbD i) false

/-- A lane is parity-good: with PAREN low always; with PAREN high when its nine bits hold an odd number of ones
for PARODD high and an even number for PARODD low (R5). -/
def laneGood (st : Straps) (b : Byte) (par : Bool) : Bool :=
  if st.paren then (oddOnes b != par) == st.parodd else true

/-- The parity bit generated for a substituted byte in the sense PARODD sets (R6). -/
def genParity (st : Straps) (b : Byte) : Bool := oddOnes b != st.parodd

/-! ### Flags of an image -/

/-- How many flags of a list are set. -/
def countSet (l : List Bool) : Nat := l.count true

/-- Set one flag. -/
def setFlag (l : List Bool) (i : Nat) (b : Bool) : List Bool := l.set i b

/-- The granules of a window (R22). -/
def Window.granules (w : Window) : Nat := w.defn.length / 16

/-- The known flag of a shadow byte. -/
def Window.byteKnown (w : Window) (offset : Nat) : Bool := w.pub.known.getD offset false

/-- All 16 bytes of a shadow granule are known (03 section 3.2). -/
def Window.shadowKnown (w : Window) (g : Nat) : Bool :=
  (List.range 16).all fun i => w.byteKnown (16 * g + i)

/-- The mode of a PUBLISH window. -/
def Window.mode? (w : Window) : Option PubMode :=
  match w.defn.body with
  | .publish d => some d.mode
  | _ => none

/-- The window is of kind PUBLISH. -/
def Window.isPublish (w : Window) : Bool := w.mode?.isSome

/-- The SUBSCRIBE fields of a SUBSCRIBE window. -/
def Window.sub? (w : Window) : Option SubscribeDef :=
  match w.defn.body with
  | .subscribe d => some d
  | _ => none

/-- The window is of kind STATUS. -/
def Window.isStatus (w : Window) : Bool :=
  match w.defn.body with
  | .status => true
  | _ => false

/-- The window is a member of apply group `g` (R74). -/
def Window.inGroup (w : Window) (g : GroupNo) : Bool :=
  match w.sub? with
  | some d => decide (g.val ≠ 0) && decide (d.group = g)
  | none => false

/-- A granule of the publishing image is fully known: all its shadow bytes known for ON_WRITE, filled for
ON_TRIGGER (R53). -/
def Window.fullyKnown (w : Window) (g : Nat) : Bool :=
  match w.mode? with
  | some .onWrite => w.shadowKnown g
  | some (.onTrigger _) => w.pub.filled.getD g false
  | none => false

/-- The publication state of a granule. -/
def Window.granState (w : Window) (g : Nat) : GranState := w.pub.states.getD g .idle

/-- Set the publication state of a granule. -/
def Window.setGran (w : Window) (g : Nat) (x : GranState) : Window :=
  { w with pub := { w.pub with states := w.pub.states.set g x } }

/-- Move the publication states of granules `first` to `last`. -/
def Window.mapGrans (w : Window) (first last : Nat) (f : GranState → GranState) : Window :=
  { w with pub := { w.pub with
      states := w.pub.states.mapIdx fun i x => if first ≤ i ∧ i ≤ last then f x else x } }

/-- An IN_FLIGHT granule that is acknowledged or whose best-effort read ends goes IDLE; one changed again goes
WANTED (R64, R65). -/
def GranState.settled : GranState → GranState
  | .inFlight => .idle
  | .inFlightAgain => .wanted
  | x => x

/-- A granule sent and not acknowledged goes back to WAITING (R66, R69). -/
def GranState.returned : GranState → GranState
  | .inFlight => .waiting
  | .inFlightAgain => .waiting
  | x => x

/-- A granule of a dropped entry goes to WANTED (R67). -/
def GranState.dropped : GranState → GranState
  | .inFlight => .wanted
  | .inFlightAgain => .wanted
  | x => x

/-- The image that is active (R73, R82). -/
def Window.activeMap (w : Window) : List Nat := if w.ov.swapped then w.mapB else w.mapA

/-- The image that is not active: the staging of a grouped window (R81). -/
def Window.stagingMap (w : Window) : List Nat := if w.ov.swapped then w.mapA else w.mapB

/-- Every granule of the overlay is present (R79). -/
def Window.allPresent (w : Window) : Bool := (List.range w.granules).all fun g => w.ov.present.getD g false

/-- Every granule is staged (R82). -/
def Window.allStaged (w : Window) : Bool := (List.range w.granules).all fun g => w.ov.staged.getD g false

/-- The window serves the fallback word at every address: EXPIRED with FALLBACK (R10). -/
def Window.servesFallback (w : Window) : Option Word :=
  match w.sub? with
  | some d =>
    match d.action with
    | .fallback word => if w.ov.state = .expired then some word else none
    | _ => none
  | none => none

/-! ### Revisions -/

/-- How a received revision stands to a held one (R75). -/
inductive RevOrder where
  | newer | same | older
deriving DecidableEq, Repr

/-- Revisions compared on a circle of 65536 values; every revision is newer than an absent one (R75). -/
def revOrder (held : Option Word) (received : Word) : RevOrder :=
  match held with
  | none => .newer
  | some o =>
    let d := (received - o).toNat
    if d = 0 then .same else if d ≤ 32767 then .newer else .older

end Sys2Proof.Machine
end

