-- ==== Sys2Proof/Machine/Ops.lean ====
section
/-! DEFINITION. The named operations over memory, places, granules, counters, alerts and the shared image port
that every command's meaning is written with (R26 to R28, R37, R38, R164 to R167). -/

namespace Sys2Proof.Machine

/-! ### Memory -/

/-- Read one byte; an unlisted address reads as `d`. -/
def Memory.read (d : Byte) : Memory → Nat → Byte
  | [], _ => d
  | (k, v) :: m, a => if k = a then v else Memory.read d m a

/-- Write one byte, keeping addresses rising and dropping an entry equal to what an unlisted address reads as. -/
def Memory.write (d : Byte) : Memory → Nat → Byte → Memory
  | [], a, v => if v = d then [] else [(a, v)]
  | (k, w) :: m, a, v =>
    if a < k then (if v = d then (k, w) :: m else (a, v) :: (k, w) :: m)
    else if a = k then (if v = d then m else (a, v) :: m)
    else (k, w) :: Memory.write d m a v

/-- The canonical form: addresses strictly rising, no entry equal to `d`. -/
def Memory.wf (d : Byte) : Memory → Bool
  | [] => true
  | [(_, v)] => v != d
  | (k, v) :: (k', v') :: m => v != d && decide (k < k') && Memory.wf d ((k', v') :: m)

/-- Write bytes at rising addresses from `a`. -/
def Memory.writeAll (d : Byte) (m : Memory) (a : Nat) : List Byte → Memory
  | [] => m
  | b :: bs => Memory.writeAll d (Memory.write d m a b) (a + 1) bs

/-- Read `n` bytes from `a`. -/
def Memory.readN (d : Byte) (m : Memory) (a n : Nat) : List Byte :=
  (List.range n).map fun i => Memory.read d m (a + i)

/-! ### Alerts and counters -/

/-- A condition is raised: its pending bit is set if it is record-enabled (R164), and LINK_LOST sets the
served-cycle count to 0 (R166). -/
def State.raise (s : State) (a : Alert) : State :=
  { s with status := { s.status with
      pending := s.status.pending ||| (s.status.record &&& a.mask)
      served := if a = .linkLost then 0 else s.status.served } }

/-- Add `n` to a counter, wrapping at 32 bits (R167). -/
def State.countN (s : State) (c : Counter) (n : Nat) : State :=
  { s with status := { s.status with
      counters := s.status.counters.set c.index
        (s.status.counters[c.index] + BitVec.ofNat 32 n) } }

/-- A thing is counted: its counter goes up by 1 (R167). -/
def State.count (s : State) (c : Counter) : State := s.countN c 1

/-- ALERT# is driven low: a condition is both pending and signal-enabled (R165). -/
def State.alertLow (s : State) : Bool := s.status.pending &&& s.status.signal != 0

/-! ### Reset and run -/

/-- The part is held in reset (R20). -/
def State.held (s : State) : Bool :=
  s.rst.supply || s.rst.pinLow || s.rst.bypassLow

/-- Start-up has ended: the Drain Engine drains and the Mailbox Unit takes commands (R173). -/
def State.running (s : State) : Bool := !s.held && decide (s.rst.phase = .running)

/-- RON: high in every link state but OFF (R105). -/
def State.ron (s : State) : Bool := decide (s.link.state ≠ .off)

/-- TXK: asserted while a frame is being sent (R107). -/
def State.txk (s : State) : Bool := s.fe.tx.isSome

/-! ### Places -/

/-- The window in a place, if the place is not FREE. -/
def State.win (s : State) (n : WinNo) : Option Window := s.places[n]

/-- Put a window, or FREE, into a place. -/
def State.setPlace (s : State) (n : WinNo) (w : Option Window) : State :=
  { s with places := s.places.set n w }

/-- Change the window in a place, if there is one. -/
def State.modWin (s : State) (n : WinNo) (f : Window → Window) : State :=
  s.setPlace n ((s.win n).map f)

/-- The window in a place, if it is LIVE. -/
def State.liveWin (s : State) (n : WinNo) : Option Window :=
  match s.win n with
  | some w => if w.state = .live then some w else none
  | none => none

/-- The places 1 to 31 whose window meets a test, in ascending number. -/
def State.placesWhere (s : State) (p : Window → Bool) : List WinNo :=
  places1to31.filter fun n => match s.win n with
    | some w => p w
    | none => false

/-- Some place 1 to 31 is PENDING, LIVE or CLOSING (R159, R160). -/
def State.anyWindowInUse (s : State) : Bool :=
  !(s.placesWhere fun w => decide (w.state ≠ .idle)).isEmpty

/-- The SUBSCRIBE window LIVE under a topic (R76). -/
def State.subscriber (s : State) (topic : Nat) : Option WinNo :=
  (s.placesWhere fun w => decide (w.state = .live) &&
    match w.sub? with
    | some d => decide (d.topic = topic)
    | none => false).head?

/-! ### Window matching -/

/-- What a byte address falls in: window 0 or a defined window, with the offset from its base (R4). -/
def State.matchAddr (s : State) (a : Nat) : Option (WinNo × Nat) :=
  let b0 := win0Base s.straps.mb
  if b0 ≤ a ∧ a < b0 + 256 then some (0, a - b0)
  else
    match (s.placesWhere fun w =>
        decide (w.defn.base ≤ a) && decide (a < w.defn.base + w.defn.length)).head? with
    | some n =>
      match s.win n with
      | some w => some (n, a - w.defn.base)
      | none => none
    | none => none

/-! ### Granules in the pool -/

/-- The pool address of byte `i` of granule `g` of an image. -/
def granAddr (map : List Nat) (g i : Nat) : Nat := 16 * map.getD g 0 + i

/-- The byte of an image at an offset. -/
def State.imageByte (s : State) (map : List Nat) (offset : Nat) : Byte :=
  s.pool.mem.read Config.imageDefault (granAddr map (offset / 16) (offset % 16))

/-- The 16 bytes of a granule of an image. -/
def State.granule (s : State) (map : List Nat) (g : Nat) : List Byte :=
  s.pool.mem.readN Config.imageDefault (granAddr map g 0) 16

/-- Write one byte of an image. -/
def State.setImageByte (s : State) (map : List Nat) (offset : Nat) (b : Byte) : State :=
  { s with pool := { s.pool with
      mem := s.pool.mem.write Config.imageDefault (granAddr map (offset / 16) (offset % 16)) b } }

/-- Write the bytes of a granule of an image. -/
def State.setGranule (s : State) (map : List Nat) (g : Nat) (bytes : List Byte) : State :=
  { s with pool := { s.pool with
      mem := s.pool.mem.writeAll Config.imageDefault (granAddr map g 0) bytes } }

/-! ### The window 0 image -/

/-- A word of the window 0 image. -/
def State.win0Word (s : State) (k : Nat) : Word :=
  joinBytes (s.win0.mem.read Config.imageDefault (2 * k + 1)) (s.win0.mem.read Config.imageDefault (2 * k))

/-! ### The shared port -/

/-- The first record waiting for delivery (R142). -/
def State.headDelivery (s : State) : Option Delivery :=
  match s.fe.delivery with
  | (d :: _) :: _ => some d
  | _ => none

/-- A delivery record waits that needs a grant: its topic matches a LIVE SUBSCRIBE window (R76). -/
def State.deliveryWaits (s : State) : Bool :=
  match s.headDelivery with
  | some d => (s.subscriber d.topic).isSome
  | none => false

/-- A requester waits for the port or, the Drain Engine apart, has work under its grant (R37, R39, R136, R142, R146;
notes/assumptions/12.md). -/
def State.wants (s : State) : Requester → Bool
  | .drain => s.running && (!s.tap.fifo.isEmpty || s.tap.learn.isSome)
  | .frame => s.running && (!s.fe.reads.isEmpty || s.fe.writing.isSome || s.deliveryWaits)
  | .mailbox => s.running &&
      match s.mbox.work with
      | .snapshot | .clearing _ _ | .peek _ | .poolTest _ => true
      | _ => false

/-- The circular order of the arbiter, from the requester after the one granted last (R38). -/
def Requester.after : Requester → List Requester
  | .drain => [.frame, .mailbox, .drain]
  | .frame => [.mailbox, .drain, .frame]
  | .mailbox => [.drain, .frame, .mailbox]

/-- The requester that holds a grant. -/
def PortGrant.requester : PortGrant → Requester
  | .drain _ => .drain
  | .frame => .frame
  | .mailbox => .mailbox

/-- A grant still has work for it: a drain step what it took when it began, each other grant what its requester wants (R37,
R39). -/
def State.works (s : State) : PortGrant → Bool
  | .drain d => s.running && (d.learn.isSome || d.entry && !s.tap.fifo.isEmpty)
  | .frame => s.wants .frame
  | .mailbox => s.wants .mailbox

/-- The grant in progress goes on: it still has work (R37). -/
def State.portHeld (s : State) : Bool :=
  match s.port with
  | some g => s.works g
  | none => false

/-- The first waiting requester after the one granted last, in the circular order (R38). -/
def State.nextGrant (s : State) : Option Requester := s.arbiter.after.find? s.wants

/-- The port is granted. A grant to the Drain Engine begins its step, which takes the learning request held at that moment,
so that the slot is free again, and the head entry, if there is one (R19, R38, R39). -/
def State.grant (s : State) : Requester → State
  | .drain => { s with
      port := some (.drain { learn := s.tap.learn, entry := !s.tap.fifo.isEmpty }), arbiter := .drain
      tap := { s.tap with learn := none } }
  | .frame => { s with port := some .frame, arbiter := .frame }
  | .mailbox => { s with port := some .mailbox, arbiter := .mailbox }

/-- The grant in progress ends (R37). -/
def State.endGrant (s : State) : State := { s with port := none }

/-- The arbiter: the grant in progress goes on, or else the port, being free, is granted to the next waiting requester, and
stays free when none waits (R37, R38). -/
def State.arbitrate (s : State) : State :=
  if s.portHeld then s
  else
    match s.nextGrant with
    | some r => s.grant r
    | none => s.endGrant

/-- A command leaves this state; the arbiter then decides on a free port at once (R38). -/
def done (s : State) : Host.Outcome State Fault Refusal := .next s.arbitrate

end Sys2Proof.Machine
end

