-- ==== Sys2Proof/Machine/Journal.lean ====
section
/-! DEFINITION. The publication journal (spec/04) and the change event that feeds it (R52, R53). -/

namespace Sys2Proof.Machine

/-! ### Entries -/

/-- The number of granules an entry names (R57). -/
def Entry.span (e : Entry) : Nat := e.last - e.first + 1

/-- The entry is WAITING (R57: the sequence is present exactly while IN_FLIGHT). -/
def Entry.isWaiting (e : Entry) : Bool := e.seq.isNone

/-- The bytes its record takes in a frame (04 section 4.3). -/
def Entry.recordSize (e : Entry) : Nat := 6 + 16 * e.span

/-- The entry's class is acknowledged: 0 or 1 (R63). -/
def Entry.acked (e : Entry) : Bool := decide (e.cls ≤ 1)

/-- The attempts limit of a class: 8 for class 0, 4 for class 1 (R63, R66). -/
def attemptsLimit (cls : Nat) : Nat := if cls = 0 then 8 else 4

/-- A new entry goes to the tail of its class (R57). -/
def insertTail (e : Entry) (l : List Entry) : List Entry :=
  l.takeWhile (fun x => decide (x.cls ≤ e.cls)) ++ e :: l.dropWhile (fun x => decide (x.cls ≤ e.cls))

/-- Replace the journal's entries. -/
def State.setEntries (s : State) (l : List Entry) : State :=
  { s with journal := { s.journal with entries := l } }

/-! ### Queueing -/

/-- What became of a queue request (R59, R60). -/
inductive Offered where
  | extended | merged | created | refused
deriving DecidableEq, Repr

/-- The lower neighbour of granule `g`: WAITING, ending at g - 1, span 13 or less (R59). -/
def Entry.lowerOf (n : WinNo) (g : Nat) (e : Entry) : Bool :=
  e.isWaiting && decide (e.win = n) && decide (e.last + 1 = g) && decide (e.span ≤ 13)

/-- The upper neighbour of granule `g`: WAITING, starting at g + 1, span 13 or less (R59). -/
def Entry.upperOf (n : WinNo) (g : Nat) (e : Entry) : Bool :=
  e.isWaiting && decide (e.win = n) && decide (e.first = g + 1) && decide (e.span ≤ 13)

/-- The list after the request for `g` was tried as an extension, and whether two entries were merged; none when
no entry qualifies (R59). -/
def extendEntries (l : List Entry) (n : WinNo) (g : Nat) : Option (List Entry × Bool) :=
  match l.findIdx? (Entry.lowerOf n g), l.findIdx? (Entry.upperOf n g) with
  | none, none => none
  | some i, none => some (l.modify i fun e => { e with last := g }, false)
  | none, some j => some (l.modify j fun e => { e with first := g }, false)
  | some i, some j =>
    match l[i]?, l[j]? with
    | some lo, some up =>
      if lo.span + 1 + up.span ≤ Config.maxSpan then
        some (((l.modify (min i j) fun e => { e with
          first := lo.first, last := up.last
          attempts := max lo.attempts up.attempts, age := max lo.age up.age }).eraseIdx (max i j)), true)
      else if i < j then some (l.modify i fun e => { e with last := g }, false)
      else some (l.modify j fun e => { e with first := g }, false)
    | _, _ => none

/-- Granule `g` of window `n` becomes WAITING. -/
def State.markWaiting (s : State) (n : WinNo) (g : Nat) : State := s.modWin n (·.setGran g .waiting)

/-- The class of a PUBLISH window (R57). -/
def Window.cls (w : Window) : Nat :=
  match w.defn.body with
  | .publish d => d.cls
  | _ => 0

/-- A queue request for granule `g` of window `n` (R59, R60), without the scan a merge is followed by. -/
def State.offer (s : State) (n : WinNo) (g : Nat) : State × Offered :=
  match extendEntries s.journal.entries n g with
  | some (l, false) => (((s.setEntries l).markWaiting n g).count .coalesced, .extended)
  | some (l, true) => (((s.setEntries l).markWaiting n g).countN .coalesced 2, .merged)
  | none =>
    if s.journal.entries.length < Config.journalRoom then
      let cls := ((s.win n).map Window.cls).getD 0
      let e : Entry := { win := n, first := g, last := g, cls := cls, attempts := 0, age := 0, seq := none }
      (((s.setEntries (insertTail e s.journal.entries)).markWaiting n g).count .created, .created)
    else
      match s.win n with
      | some w =>
        let s' := s.setPlace n (some { w with pub := { w.pub with backlog := true } })
        (if w.pub.backlog then s' else s'.raise .journalFull, .refused)
      | none => (s, .refused)

/-- Granule `g` of window `n` is to be offered: the window is LIVE, the granule WANTED and fully known (R53). -/
def State.offerable (s : State) (n : WinNo) (g : Nat) : Bool :=
  match s.liveWin n with
  | some w => decide (w.granState g = .wanted) && w.fullyKnown g
  | none => false

/-! ### The backlog scan (R61) -/

/-- A scan in progress: whether a merge has freed a place, and whether a refusal came after it. -/
structure ScanState where
  s : State
  merged : Bool
  again : Bool

/-- The scan offers one granule of the window it visits; the flag says whether an offer was refused. -/
def scanGranule (n : WinNo) (r : ScanState × Bool) (g : Nat) : ScanState × Bool :=
  if r.1.s.offerable n g then
    let o := r.1.s.offer n g
    ({ s := o.1
       merged := r.1.merged || decide (o.2 = .merged)
       again := r.1.again || (r.1.merged && decide (o.2 = .refused)) },
     r.2 || decide (o.2 = .refused))
  else r

/-- The scan visits one window: only a LIVE one whose backlog flag is set; the flag is cleared at the end when no
offer was refused. -/
def scanWindow (a : ScanState) (n : WinNo) : ScanState :=
  match a.s.liveWin n with
  | some w =>
    if w.pub.backlog then
      let r := (List.range w.granules).foldl (scanGranule n) (a, false)
      if r.2 then r.1
      else { r.1 with s := r.1.s.modWin n fun w => { w with pub := { w.pub with backlog := false } } }
    else a
  | none => a

/-- One pass of the scan over the places in ascending number. -/
def State.scanOnce (s : State) : ScanState :=
  places1to31.foldl scanWindow { s := s, merged := false, again := false }

/-- The scan, run again while a refusal followed a merge's freed place; `fuel` bounds the runs. -/
def scanFuel : Nat → State → State
  | 0, s => s
  | k + 1, s => let a := s.scanOnce; if a.again then scanFuel k a.s else a.s

/-- The WANTED granules of all windows; each further run of the scan has queued at least one of them. -/
def State.wantedCount (s : State) : Nat :=
  (places1to31.map fun n => ((s.win n).map fun w => w.pub.states.count .wanted).getD 0).sum

/-- The backlog scan (R61). -/
def State.backlogScan (s : State) : State := scanFuel (s.wantedCount + 1) s

/-- A queue request as a journal step of its own: a merge is followed by the scan (R59, R61). -/
def State.queueRequest (s : State) (n : WinNo) (g : Nat) : State :=
  let o := s.offer n g
  if o.2 = .merged then o.1.backlogScan else o.1

/-- The granules of a run, ascending. -/
def runOf (first last : Nat) : List Nat := (List.range (last + 1 - first)).map (first + ·)

/-- Offer the granules of a run that are to be offered, inside a journal step. -/
def State.offerRun (s : State) (n : WinNo) (first last : Nat) : State :=
  (runOf first last).foldl (fun t g => if t.offerable n g then (t.offer n g).1 else t) s

/-- Offer the granules of a run that are to be offered, each as a step of its own. -/
def State.queueRun (s : State) (n : WinNo) (first last : Nat) : State :=
  (runOf first last).foldl (fun t g => if t.offerable n g then t.queueRequest n g else t) s

/-! ### The change event (R52) -/

/-- A change reaches granule `g` of the publishing image of window `n`. -/
def State.change (s : State) (n : WinNo) (g : Nat) : State :=
  match s.liveWin n with
  | some w =>
    if w.isPublish then
      match w.granState g with
      | .idle | .wanted =>
        let s' := s.setPlace n (some (w.setGran g .wanted))
        if w.fullyKnown g then s'.queueRequest n g else s'
      | .waiting => s
      | .inFlight | .inFlightAgain => s.setPlace n (some (w.setGran g .inFlightAgain))
    else s
  | none => s

/-- Changes reach granules in ascending order (R52). -/
def State.changeAll (s : State) (n : WinNo) (gs : List Nat) : State := gs.foldl (fun t g => t.change n g) s

/-- The granules of the publishing image that are fully known or filled, ascending (R54, R55). -/
def Window.sendable (w : Window) : List Nat := (List.range w.granules).filter fun g => w.fullyKnown g

/-! ### Frames acknowledged, lost and reverted -/

/-- The entries a sent-frame record carries, in record order (R137). -/
def State.carriedBy (s : State) (f : SentFrame) : List Entry :=
  f.carried.filterMap fun k =>
    s.journal.entries.find? fun e => decide (e.win = k.1) && decide (e.first = k.2) && decide (e.seq = some f.seq)

/-- Move the publication states of an entry's granules. -/
def State.moveGrans (s : State) (e : Entry) (f : GranState → GranState) : State :=
  s.modWin e.win (·.mapGrans e.first e.last f)

/-- A frame is acknowledged: its entries leave the journal, their granules go IDLE or are queued again, and a scan
follows (R65). A record that carries no entry has no effect on the journal (R138). -/
def State.acknowledge (s : State) (f : SentFrame) : State :=
  let es := s.carriedBy f
  if es.isEmpty then s
  else
    let s1 := s.setEntries (s.journal.entries.filter fun e => !es.contains e)
    let s2 := es.foldl (fun t e => t.moveGrans e .settled) s1
    (es.foldl (fun t e => t.offerRun e.win e.first e.last) s2).backlogScan

/-- A frame is lost: entries within their attempts return to WAITING in place (R66); entries at their limit are
dropped, counted and their granules queued again, and a scan follows (R67). -/
def State.loseFrame (s : State) (f : SentFrame) : State :=
  let es := s.carriedBy f
  let dropped := es.filter fun e => decide (attemptsLimit e.cls ≤ e.attempts)
  let kept := es.filter fun e => !decide (attemptsLimit e.cls ≤ e.attempts)
  let s1 := s.setEntries ((s.journal.entries.filter fun e => !dropped.contains e).map fun e =>
    if kept.contains e then { e with seq := none } else e)
  let s2 := kept.foldl (fun t e => t.moveGrans e .returned) s1
  let s3 := (dropped.foldl (fun t e => t.moveGrans e .dropped) s2).countN .dropped dropped.length
  if dropped.isEmpty then s3
  else (dropped.foldl (fun t e => t.offerRun e.win e.first e.last) s3).backlogScan

/-- Replace the sent-frame list. -/
def State.setSent (s : State) (l : List SentFrame) : State := { s with fe := { s.fe with sent := l } }

/-- A link change: every IN_FLIGHT entry returns to WAITING in place and the sent-frame list is cleared (R69). -/
def State.revert (s : State) : State :=
  let flying := s.journal.entries.filter fun e => !e.isWaiting
  let s1 := s.setEntries (s.journal.entries.map fun e => { e with seq := none })
  (flying.foldl (fun t e => t.moveGrans e .returned) s1).setSent []

/-! ### Ageing and purge -/

/-- A WAITING entry ages out at this age: 16 for class 2, 4 for class 3 (R68). -/
def Entry.agesOut (e : Entry) : Bool :=
  e.isWaiting && ((decide (e.cls = 2) && decide (16 ≤ e.age)) || (decide (e.cls = 3) && decide (4 ≤ e.age)))

/-- One cycle-start event older, saturating at 255 (R57). -/
def Entry.older (e : Entry) : Entry := { e with age := min 255 (e.age + 1) }

/-- The journal's ageing of a cycle-start event and its scan (R61, R68). Entries of a window that the same event
purges are not aged (R35): `skip` names those windows. -/
def State.ageJournal (s : State) (skip : WinNo → Bool) : State :=
  let aged := s.journal.entries.map fun e => if skip e.win then e else e.older
  let gone := aged.filter fun e => e.agesOut && !skip e.win
  let s1 := s.setEntries (aged.filter fun e => !(e.agesOut && !skip e.win))
  let s2 := gone.foldl (fun t e => t.moveGrans e fun _ => .idle) s1
  (s2.countN .agedOut gone.length).backlogScan

/-- Remove a purged window's entries from the journal and from the sent-frame records (R33). -/
def State.purgeEntries (s : State) (n : WinNo) : State :=
  { s with
    journal := { s.journal with entries := s.journal.entries.filter fun e => decide (e.win ≠ n) }
    fe := { s.fe with
      sent := s.fe.sent.map fun f => { f with carried := f.carried.filter fun k => decide (k.1 ≠ n) }
      reads := s.fe.reads.map fun j => if j.win = n then { j with purged := true } else j } }

/-! ### Selection (R62 to R64) -/

/-- The walk of the list: what stays in the journal and what is taken for the frame of sequence `q`. -/
def selectWalk (q : BitVec 8) : List Entry → Nat → List Entry × List Entry
  | [], _ => ([], [])
  | e :: es, room =>
    if e.isWaiting then
      if e.recordSize ≤ room then
        let r := selectWalk q es (room - e.recordSize)
        if e.acked then
          ({ e with seq := some q, attempts := min (attemptsLimit e.cls) (e.attempts + 1) } :: r.1, e :: r.2)
        else (r.1, e :: r.2)
      else (e :: es, [])
    else
      let r := selectWalk q es room
      (e :: r.1, r.2)

/-- The entries a frame would take: none while HOLD is in force (R62, R71). -/
def State.selection (s : State) : List Entry × List Entry :=
  if s.journal.hold then (s.journal.entries, [])
  else selectWalk s.fe.nextSeq s.journal.entries Config.frameRoom

end Sys2Proof.Machine
end

