-- ==== Sys2Proof/Machine/Overlay.lean ====
section
/-! DEFINITION. The Overlay Unit (spec/05): apply groups and their staging, delivery records granule by granule,
ageing and expiry. -/

namespace Sys2Proof.Machine

/-! ### Groups -/

/-- Change every defined window. -/
def State.modAll (s : State) (f : Window → Window) : State :=
  { s with places := s.places.map fun o => o.map f }

/-- Replace a group's state. -/
def State.setGroup (s : State) (g : GroupNo) (x : Group) : State := { s with groups := s.groups.set g x }

/-- No granule of the window is staged. -/
def Window.unstage (w : Window) : Window :=
  { w with ov := { w.ov with staged := w.ov.staged.map fun _ => false } }

/-- A group's staging is emptied: the staged flags of every member, LIVE or not, the revision and the age (R74). -/
def State.emptyStaging (s : State) (g : GroupNo) : State :=
  (s.modAll fun w => if w.inGroup g then w.unstage else w).setGroup g
    { s.groups[g] with staging := none, age := 0 }

/-- A staging emptied other than by its completion is discarded: counted and raised if it was in progress (R74). -/
def State.discardStaging (s : State) (g : GroupNo) : State :=
  let s' := s.emptyStaging g
  if s.groups[g].staging.isSome then (s'.count .groupsDropped).raise .groupDropped else s'

/-- A membership change of group `g` (R84): the staging is emptied, and a member going LIVE makes the group's current
revision absent. -/
def State.memberChange (s : State) (g : GroupNo) (goesLive : Bool) : State :=
  if g.val = 0 then s
  else
    let s' := s.discardStaging g
    if goesLive then s'.setGroup g { s'.groups[g] with revision := none } else s'

/-- The apply group of a window, 0 when it has none. -/
def Window.group (w : Window) : GroupNo :=
  match w.sub? with
  | some d => d.group
  | none => 0

/-- The LIVE members of a group (R74). -/
def State.liveMembers (s : State) (g : GroupNo) : List WinNo :=
  s.placesWhere fun w => decide (w.state = .live) && w.inGroup g

/-! ### Delivery records -/

/-- The head record has been handed over or is done with: the grant ends, and a frame whose last record it was
leaves its buffer (R142). -/
def State.recordDone (s : State) : State :=
  { s with fe := { s.fe with
      writing := none
      delivery := match s.fe.delivery with
        | (_ :: d :: ds) :: fs => (d :: ds) :: fs
        | _ :: fs => fs
        | [] => [] } }

/-- A record is discarded: counted, nothing else changed (R76). -/
def State.discardRecord (s : State) : State := (s.count .discarded).recordDone

/-- A record passes its checks: counted as applied, and its writing begins (R76). -/
def State.acceptRecord (s : State) (n : WinNo) (staging : Option Word) : State :=
  let s' := s.count .applied
  { s' with fe := { s'.fe with writing := some { win := n, written := 0, staging := staging } } }

/-- The revision test for a grouped window (R80). -/
def State.stageRecord (s : State) (n : WinNo) (g : GroupNo) (rev : Word) : State :=
  if revOrder s.groups[g].revision rev = .newer then
    match s.groups[g].staging with
    | none =>
      let s' := s.emptyStaging g
      (s'.setGroup g { s'.groups[g] with staging := some rev, age := 0 }).acceptRecord n (some rev)
    | some held =>
      match revOrder (some held) rev with
      | .newer =>
        let s' := s.discardStaging g
        (s'.setGroup g { s'.groups[g] with staging := some rev, age := 0 }).acceptRecord n (some rev)
      | .same => s.acceptRecord n (some rev)
      | .older => s.discardRecord
  else s.discardRecord

/-- The grant begins: checks 2 and 3 of R76 for a record that matches LIVE SUBSCRIBE window `n`. -/
def State.beginRecord (s : State) (n : WinNo) (d : Delivery) : State :=
  match s.win n with
  | some w =>
    if w.granules < d.first + d.data.length then s.discardRecord
    else if w.group.val = 0 then
      if revOrder w.ov.revision d.revision = .older then s.discardRecord else s.acceptRecord n none
    else s.stageRecord n w.group d.revision
  | none => s.discardRecord

/-- The overlay state an applied record leaves (R79). -/
def Window.settledState (w : Window) : OverlayState :=
  match w.ov.state, w.sub? with
  | .expired, some { action := .fallback _, .. } => if w.allPresent then .fresh else .expired
  | _, _ => .fresh

/-- The final step of a record on an ungrouped window (R78). -/
def Window.applied (w : Window) (rev : Word) : Window :=
  { w with ov := { w.ov with
      revision := if revOrder w.ov.revision rev = .newer then some rev else w.ov.revision
      age := 0
      state := w.settledState } }

/-- A LIVE member at the swap: its images change roles, every granule is present, none is staged (R82). -/
def Window.swap (w : Window) : Window :=
  { w with ov := { w.ov with
      swapped := !w.ov.swapped
      present := List.replicate w.granules true
      staged := w.ov.staged.map fun _ => false
      age := 0
      state := .fresh } }

/-- The group's swap (R82). -/
def State.swapGroup (s : State) (g : GroupNo) (rev : Word) : State :=
  let s1 := s.modAll fun w => if w.inGroup g then (if w.state = .live then w.swap else w.unstage) else w
  (s1.setGroup g { revision := some rev, staging := none, age := 0 }).count .groupsApplied

/-- The completion test after the last granule, and the swap when it passes (R82). -/
def State.tryComplete (s : State) (g : GroupNo) (rev : Word) : State :=
  if (s.liveMembers g).all fun n => match s.win n with
    | some w => w.allStaged
    | none => false
  then s.swapGroup g rev else s

/-- One granule written has been counted in the grant in progress. -/
def State.wroteOne (s : State) : State :=
  { s with fe := { s.fe with writing := s.fe.writing.map fun w => { w with written := w.written + 1 } } }

/-- One granule write into the active image (R78). -/
def State.writePresent (s : State) (n : WinNo) (w : Window) (g : Nat) (bytes : List Byte) : State :=
  ((s.setGranule w.activeMap g bytes).setPlace n
    (some { w with ov := { w.ov with present := w.ov.present.set g true } })).wroteOne

/-- One granule write into the staging image (R81). -/
def State.writeStaged (s : State) (n : WinNo) (w : Window) (g : Nat) (bytes : List Byte) : State :=
  ((s.setGranule w.stagingMap g bytes).setPlace n
    (some { w with ov := { w.ov with staged := w.ov.staged.set g true } })).wroteOne

/-- One move of the record's grant: a granule write, or the step after the last granule. A record whose window has
left LIVE, or whose staging is no longer the one it joined, is abandoned (R78, R81). -/
def State.recordMove (s : State) : State :=
  match s.fe.writing, s.headDelivery with
  | some j, some d =>
    match s.liveWin j.win with
    | none => s.recordDone
    | some w =>
      match j.staging with
      | none =>
        match d.data[j.written]? with
        | some bytes => s.writePresent j.win w (d.first + j.written) bytes
        | none => (s.setPlace j.win (some (w.applied d.revision))).recordDone
      | some rev =>
        if s.groups[w.group].staging = some rev then
          match d.data[j.written]? with
          | some bytes => s.writeStaged j.win w (d.first + j.written) bytes
          | none => (s.tryComplete w.group rev).recordDone
        else s.recordDone
  | _, _ => s

/-- Up to `k` moves; a record that is done takes no more. -/
def recordMoves : Nat → State → State
  | 0, s => s
  | k + 1, s => if s.fe.writing.isSome then recordMoves k s.recordMove else s

/-! ### Ageing and expiry -/

/-- The age after a cycle-start event (R85). -/
def Overlay.older (o : Overlay) : Nat := min 255 (o.age + 1)

/-- The next ageing raises the age to the hold time (R85). -/
def Window.reachesHold (w : Window) : Bool :=
  match w.sub? with
  | some d => decide (w.ov.age ≠ d.hold) && decide (w.ov.older = d.hold)
  | none => false

/-- The next ageing expires a FRESH window (R86). -/
def Window.expiresNext (w : Window) : Bool :=
  decide (w.state = .live) && decide (w.ov.state = .fresh) && w.reachesHold

/-- The action is FALLBACK. -/
def SubscribeDef.isFallback (d : SubscribeDef) : Bool :=
  match d.action with
  | .fallback _ => true
  | _ => false

/-- The next ageing ends the refill of an EXPIRED ungrouped FALLBACK window (R87). -/
def Window.refillEndsNext (w : Window) : Bool :=
  decide (w.state = .live) && decide (w.ov.state = .expired) && w.reachesHold &&
    match w.sub? with
    | some d => decide (d.group.val = 0) && d.isFallback
    | none => false

/-- No granule is present. -/
def Overlay.noneFresh (o : Overlay) : Overlay := { o with present := o.present.map fun _ => false }

/-- The window's part of an expiry (R86). -/
def Window.expire (w : Window) : Window :=
  let o := { w.ov with age := w.ov.older, revision := none }
  { w with ov :=
      match w.sub? with
      | some { action := .hold, .. } => { o with state := .expired }
      | some { action := .fallback _, .. } => { o.noneFresh with state := .expired }
      | _ => { o.noneFresh with state := .empty } }

/-- The window's part of a renewed expiry (R87). -/
def Window.refillExpire (w : Window) : Window :=
  { w with ov := { w.ov.noneFresh with age := w.ov.older, revision := none } }

/-- One window's ageing at a cycle-start event (R85 to R87). -/
def State.ageWindow (s : State) (n : WinNo) : State :=
  match s.liveWin n with
  | some w =>
    if w.sub?.isSome ∧ w.ov.state ≠ .empty then
      if w.expiresNext then
        let s1 := (s.setPlace n (some w.expire)).raise .windowExpired
        if w.group.val = 0 then s1
        else
          let s2 := s1.discardStaging w.group
          s2.setGroup w.group { s2.groups[w.group] with revision := none }
      else if w.refillEndsNext then s.setPlace n (some w.refillExpire)
      else s.setPlace n (some { w with ov := { w.ov with age := w.ov.older } })
    else s
  | none => s

/-- A group's staging reaches its limit at the next ageing (R83). -/
def Group.limitNext (g : Group) : Bool := g.staging.isSome && decide (Config.stagingLimit ≤ g.age + 1)

/-- One group's staging age at a cycle-start event (R83). -/
def State.ageStaging (s : State) (g : GroupNo) : State :=
  if s.groups[g].staging.isSome then
    if s.groups[g].limitNext then s.discardStaging g
    else s.setGroup g { s.groups[g] with age := s.groups[g].age + 1 }
  else s

end Sys2Proof.Machine
end

