-- ==== Sys2Proof/Machine/Windows.lean ====
section
/-! DEFINITION. Window definitions and their installation (R22 to R29), and the window states: going LIVE, closing,
purge, freeing (R30 to R36). -/

namespace Sys2Proof.Machine

/-! ### Definitions as given -/

/-- The fields of a definition as a command or the profile gives them, before any check (R22, R175). -/
structure RawDefn where
  number : Nat
  kind : Nat
  base : Nat
  length : Nat
  topic : Nat
  cls : Nat
  mode : Nat
  trigger : Nat
  refresh : Nat
  hold : Nat
  action : Nat
  fallback : Nat
  release : Nat
  group : Nat
  start : Nat
deriving DecidableEq, Repr

/-- Why a definition is refused (R153); `badParam` names the parameter word. -/
inductive DefnFail where
  | badParam (word : Nat)
  | windowState
  | overlap (n : Nat)
  | topicInUse (n : Nat)
  | noRoom (cost room : Nat)
  | imageFault
deriving DecidableEq, Repr

/-- The cost of a definition in pool granules (R28). -/
def Definition.cost (d : Definition) : Nat :=
  match d.body with
  | .publish p =>
    match p.mode with
    | .onWrite => d.length / 16
    | .onTrigger _ => 2 * (d.length / 16)
  | .subscribe b => if b.group.val = 0 then d.length / 16 else 2 * (d.length / 16)
  | .status => 0

/-- The granules a window holds, as its maps list them (R27). -/
def Window.held (w : Window) : List Nat := w.mapA ++ w.mapB

/-- The granules place `n` holds. -/
def State.heldBy (s : State) (n : WinNo) : List Nat := ((s.win n).map Window.held).getD []

/-- Fail with a parameter word unless a condition holds. -/
def need (ok : Bool) (word : Nat) : Except DefnFail Unit := if ok then .ok () else .error (.badParam word)

/-- Check 8 of R23 for a PUBLISH definition, in the order of the parameter words (notes/assumptions/13.md). -/
def RawDefn.publishBody (r : RawDefn) : Except DefnFail DefBody := do
  need (decide (r.cls ≤ 3)) 7
  need (decide (r.mode ≤ 1)) 8
  need (decide (r.mode = 0) || (decide (r.trigger % 2 = 0) && decide (r.trigger < r.length))) 9
  need (decide (r.refresh ≤ 255)) 10
  need (decide (r.start ≤ 1)) 16
  return .publish {
    topic := r.topic, cls := r.cls, refresh := r.refresh
    mode := if r.mode = 0 then .onWrite else .onTrigger r.trigger }

/-- Check 8 of R23 for a SUBSCRIBE definition. -/
def RawDefn.subscribeBody (r : RawDefn) : Except DefnFail DefBody := do
  need (decide (1 ≤ r.hold) && decide (r.hold ≤ 255)) 11
  need (decide (r.action ≤ 2)) 12
  need (decide (r.release ≤ 1) && !(decide (r.release = 1) && decide (1 ≤ r.group) && decide (r.group ≤ 7))) 14
  need (decide (r.group ≤ 7)) 15
  need (decide (r.start ≤ 1)) 16
  return .subscribe {
    topic := r.topic, hold := r.hold
    action := if r.action = 0 then .hold
      else if r.action = 1 then .fallback (BitVec.ofNat 16 r.fallback) else .release
    releaseOnWrite := decide (r.release = 1)
    group := Fin.ofNat 8 r.group }

/-- Check 8 of R23 for a STATUS definition. -/
def RawDefn.statusBody (r : RawDefn) : Except DefnFail DefBody := do
  need (decide (r.start ≤ 1)) 16
  return .status

/-- The window whose range the definition meets, lowest number first, window 0 as 0 (R23 check 6, R153). -/
def State.overlapWith (s : State) (n : WinNo) (base length : Nat) : Option Nat :=
  let meets (b l : Nat) : Bool := decide (base < b + l) && decide (b < base + length)
  if meets (win0Base s.straps.mb) 256 then some 0
  else ((places1to31.filter fun m => decide (m ≠ n) && match s.win m with
    | some w => meets w.defn.base w.defn.length
    | none => false).head?).map Fin.val

/-- The topic of a window, for its kind's code (R23 check 7). -/
def Window.topicOf (w : Window) (kind : Nat) : Option Nat :=
  match w.defn.body with
  | .publish d => if kind = 1 then some d.topic else none
  | .subscribe d => if kind = 2 then some d.topic else none
  | .status => none

/-- The window of the same kind that holds the topic. -/
def State.topicHolder (s : State) (n : WinNo) (kind topic : Nat) : Option Nat :=
  ((places1to31.filter fun m => decide (m ≠ n) && match s.win m with
    | some w => decide (w.topicOf kind = some topic)
    | none => false).head?).map Fin.val

/-- Another window is defined with kind STATUS (R23 check 3). -/
def State.otherStatus (s : State) (n : WinNo) : Bool :=
  !(places1to31.filter fun m => decide (m ≠ n) && match s.win m with
    | some w => w.isStatus
    | none => false).isEmpty

/-- The place a definition names: window 1 to 31 (R23 check 1). -/
def RawDefn.place (r : RawDefn) : Except DefnFail WinNo :=
  match winNo? r.number with
  | some n => .ok n
  | none => .error (.badParam 1)

/-- The place is FREE or IDLE (R23 check 2). -/
def State.checkPlace (s : State) (n : WinNo) : Except DefnFail Unit :=
  match s.win n with
  | some w => if w.state = .idle then .ok () else .error .windowState
  | none => .ok ()

/-- Refuse when the range meets a window. -/
def refuseOverlap : Option Nat → Except DefnFail Unit
  | some m => .error (.overlap m)
  | none => .ok ()

/-- The range meets no other window (R23 check 6). -/
def State.checkRange (s : State) (n : WinNo) (r : RawDefn) : Except DefnFail Unit :=
  refuseOverlap (s.overlapWith n r.base r.length)

/-- The topic of a PUBLISH or SUBSCRIBE definition is in range and free in its kind (R23 check 7). -/
def State.checkTopic (s : State) (n : WinNo) (r : RawDefn) : Except DefnFail Unit :=
  if r.kind = 3 then .ok ()
  else if 1 ≤ r.topic ∧ r.topic ≤ 1023 then
    match s.topicHolder n r.kind r.topic with
    | some m => .error (.topicInUse m)
    | none => .ok ()
  else .error (.badParam 6)

/-- The kind's fields (R23 check 8). -/
def RawDefn.body (r : RawDefn) : Except DefnFail DefBody :=
  if r.kind = 1 then r.publishBody else if r.kind = 2 then r.subscribeBody else r.statusBody

/-- The pool has room for the definition, the place's own granules counted as free (R23 check 9, R29, R153). -/
def State.checkRoom (s : State) (n : WinNo) (d : Definition) : Except DefnFail (WinNo × Definition) :=
  let room := s.pool.free.length + (s.heldBy n).length
  if d.cost ≤ room then .ok (n, d)
  else if s.pool.usable then .error (.noRoom d.cost room) else .error .imageFault

/-- The conditions of R23 in order; the first that fails decides (R153). DESIGN CHOICE (notes/assumptions/13.md): a base that
is no multiple of 16, which words 3 and 4 hold, names word 3. -/
def State.checkDefn (s : State) (r : RawDefn) : Except DefnFail (WinNo × Definition) := do
  let n ← r.place
  s.checkPlace n
  need (decide (1 ≤ r.kind) && decide (r.kind ≤ 3) && !(decide (r.kind = 3) && s.otherStatus n)) 2
  need (decide (r.base % 16 = 0)) 3
  need (decide (r.length % 16 = 0) && decide (16 ≤ r.length) && decide (r.length ≤ 4096)
    && (decide (r.kind ≠ 3) || decide (r.length = 64)) && decide (r.base + r.length ≤ 0x1000000)) 5
  s.checkRange n r
  s.checkTopic n r
  let body ← r.body
  s.checkRoom n { base := r.base, length := r.length, body := body, startEnabled := decide (r.start = 1) }

/-! ### Installation -/

/-- The flags of a PUBLISH window's images, all clear, its publication state, revision 0 and a countdown (R31). -/
def Definition.clearPub (d : Definition) (countdown : Nat) : Publication :=
  let g := d.length / 16
  match d.body with
  | .publish p =>
    { known := List.replicate d.length false
      dirty := match p.mode with
        | .onWrite => []
        | .onTrigger _ => List.replicate g false
      filled := match p.mode with
        | .onWrite => []
        | .onTrigger _ => List.replicate g false
      states := List.replicate g .idle
      revision := 0, countdown := countdown, backlog := false }
  | _ => { known := [], dirty := [], filled := [], states := [], revision := 0, countdown := 0, backlog := false }

/-- An EMPTY overlay: no granule present or staged, revision absent, age 0 (R31). -/
def Definition.clearOverlay (d : Definition) (swapped : Bool) : Overlay :=
  let g := match d.body with
    | .subscribe _ => d.length / 16
    | _ => 0
  { present := List.replicate g false, staged := List.replicate g false, swapped := swapped,
    revision := none, age := 0, state := .empty }

/-- The window a definition makes, IDLE, with these granules (R28; notes/assumptions/14.md for its registers). -/
def Definition.newWindow (d : Definition) (granules : List Nat) : Window :=
  { state := .idle, defn := d, mapA := granules.take (d.length / 16), mapB := granules.drop (d.length / 16),
    fence := 0, pub := d.clearPub 0, ov := d.clearOverlay false }

/-- A place becomes FREE and its granules go to the tail of the free list (R34, R36). -/
def State.freePlace (s : State) (n : WinNo) : State :=
  { s with
    pool := { s.pool with free := s.pool.free ++ s.heldBy n }
    places := s.places.set n none }

/-- All places 1 to 31 become FREE (R25, R36). DESIGN CHOICE (notes/assumptions/39.md): their granules join the free list
in ascending window number, an order that R25 and R36 leave open. -/
def State.freeAll (s : State) : State := places1to31.foldl State.freePlace s

/-- Installation in one step: the old granules to the tail, the cost from the head, the place IDLE (R28). -/
def State.install (s : State) (n : WinNo) (d : Definition) : State :=
  let free := s.pool.free ++ s.heldBy n
  { s with
    pool := { s.pool with free := free.drop d.cost }
    places := s.places.set n (some (d.newWindow (free.take d.cost))) }

/-- The granules a newly installed window has to have cleared (R28). DESIGN CHOICE (notes/assumptions/14.md): first image
first, in ascending order. -/
def State.clearItems (s : State) (n : WinNo) : List ClearItem :=
  match s.win n with
  | some w =>
    (List.range w.mapA.length).map (fun g => { win := n, second := false, gran := g })
      ++ (List.range w.mapB.length).map (fun g => { win := n, second := true, gran := g })
  | none => []

/-- Clear the known flags of granule `g`. -/
def forget (l : List Bool) (g : Nat) : List Bool :=
  l.mapIdx fun i b => if 16 * g ≤ i ∧ i < 16 * g + 16 then false else b

/-- The flags of one granule of one image cleared (R28). -/
def Window.clearFlags (w : Window) (second : Bool) (g : Nat) : Window :=
  match w.mode?, second with
  | some .onWrite, false =>
    { w with pub := { w.pub with known := forget w.pub.known g, states := w.pub.states.set g .idle } }
  | some (.onTrigger _), false =>
    { w with pub := { w.pub with known := forget w.pub.known g, dirty := w.pub.dirty.set g false } }
  | some _, true =>
    { w with pub := { w.pub with filled := w.pub.filled.set g false, states := w.pub.states.set g .idle } }
  | none, _ =>
    if second = w.ov.swapped then { w with ov := { w.ov with present := w.ov.present.set g false } }
    else { w with ov := { w.ov with staged := w.ov.staged.set g false } }

/-- One granule of a window zeroed and its flags cleared (R28). -/
def State.clearGranule (s : State) (c : ClearItem) : State :=
  match s.win c.win with
  | some w =>
    (s.setGranule (if c.second then w.mapB else w.mapA) c.gran (List.replicate 16 0)).setPlace c.win
      (some (w.clearFlags c.second c.gran))
  | none => s

/-! ### Window states -/

/-- The set-up of a window on going LIVE, with its entry fence, its overlay map active (R31, R41, R90). -/
def Window.goLive (w : Window) (occupancy : Nat) : Window :=
  { w with
    state := .live
    fence := occupancy
    pub := w.defn.clearPub (match w.defn.body with
      | .publish p => p.refresh
      | _ => 0)
    ov := w.defn.clearOverlay false }

/-- Place `n` goes LIVE in one step, with the membership change of its group (R31, R84). -/
def State.goLive (s : State) (n : WinNo) : State :=
  match s.win n with
  | some w => (s.setPlace n (some (w.goLive s.tap.fifo.length))).memberChange w.group true
  | none => s

/-- A LIVE window becomes CLOSING, with the membership change of its group (R32, R84). -/
def State.close (s : State) (n : WinNo) : State :=
  match s.win n with
  | some w => (s.setPlace n (some { w with state := .closing })).memberChange w.group false
  | none => s

/-- What the purge leaves of a window: IDLE, nothing to send, nothing served (R33, R54). DESIGN CHOICE
(notes/assumptions/41.md): a grouped window's maps keep their roles until it goes LIVE again. -/
def Window.purged (w : Window) : Window :=
  { w with
    state := .idle
    pub := { w.pub with
      states := w.pub.states.map fun _ => .idle
      dirty := w.pub.dirty.map fun _ => false
      backlog := false
      countdown := 0 }
    ov := w.defn.clearOverlay w.ov.swapped }

/-- The purge of a CLOSING window, followed by a backlog scan (R33, R70). DESIGN CHOICE (notes/assumptions/40.md): the scan
follows the purge at once, also a purge that removes no entry, where R61 names steps that remove one and R70 every
purge. -/
def State.purge (s : State) (n : WinNo) : State :=
  ((s.purgeEntries n).modWin n Window.purged).backlogScan

end Sys2Proof.Machine
end

