-- ==== Sys2Proof/Machine/Link.lean ====
section
/-! DEFINITION. The Link Controller (spec/07): neighbours and scores, candidates, join requests, and the link
states from OFF to HANDOFF. -/

namespace Sys2Proof.Machine

/-! ### The neighbour table -/

/-- Replace the neighbour table. -/
def State.setTable (s : State) (t : List Neighbour) : State := { s with link := { s.link with table := t } }

/-- The entry of a node. -/
def State.neighbour (s : State) (node : Nat) : Option Neighbour :=
  s.link.table.find? fun e => decide (e.node = node)

/-- Change the entry of a node. -/
def State.modNeighbour (s : State) (node : Nat) (f : Neighbour → Neighbour) : State :=
  s.setTable (s.link.table.map fun e => if e.node = node then f e else e)

/-- The SERVING entry (R109). -/
def State.serving (s : State) : Option Neighbour := s.link.table.find? fun e => decide (e.role = .serving)

/-- The TARGET entry (R109). -/
def State.target (s : State) : Option Neighbour := s.link.table.find? fun e => decide (e.role = .target)

/-- The reference node: the serving node in SERVED and HANDOFF, the target in JOINING, else none (R94). -/
def State.reference (s : State) : Option Nat :=
  match s.link.state with
  | .served | .handoff => s.serving.map Neighbour.node
  | .joining => s.target.map Neighbour.node
  | .off | .starting | .search => none

/-- Whenever a step changes the reference node, the large-error run count becomes 0 (R94). -/
def State.watchReference (s s' : State) : State :=
  if s'.reference = s.reference then s' else { s' with timer := { s'.timer with run := 0 } }

/-- The drop test: an entry of role NONE with D misses or more leaves the table (R114). -/
def Neighbour.drops (d : Nat) (e : Neighbour) : Bool := decide (e.role = .none) && decide (d ≤ e.misses)

/-- The drop test for one node. -/
def State.dropTest (s : State) (node : Nat) : State :=
  s.setTable (s.link.table.filter fun e => !(decide (e.node = node) && e.drops s.params.d))

/-- A node loses its role, and the drop test is made (R114). -/
def State.loseRole (s : State) (node : Nat) : State :=
  (s.modNeighbour node fun e => { e with role := .none }).dropTest node

/-- A node is barred for 16 cycle-start events (R115). -/
def State.barNode (s : State) (node : Nat) : State := s.modNeighbour node fun e => { e with bar := 16 }

/-- The quality sample of a received level (R111). -/
def sampleOf (p : Params) (level : Nat) : Nat :=
  if level ≤ p.f then 0 else min 255 ((level - p.f) * p.s)

/-- A score moved toward a sample by the weight W (R111). -/
def moveScore (p : Params) (score q : Nat) : Nat :=
  if score ≤ q then score + ((q - score) * p.w + 8) / 16
  else score - ((score - q) * p.w + 8) / 16

/-- The entry of a heard beacon (R111). -/
def Neighbour.hear (p : Params) (phase q : Nat) (accepting closing late : Bool) (e : Neighbour) : Neighbour :=
  { e with
    score := moveScore p e.score q, misses := 0, heard := true, late := late, sample := q, phase := phase
    accepting := accepting, closing := closing }

/-- The entry a beacon of a new node makes (R113). -/
def newNeighbour (node phase q : Nat) (accepting closing late : Bool) : Neighbour :=
  { node := node, phase := phase, score := q, misses := 0, heard := true, late := late, sample := q,
    accepting := accepting, closing := closing, role := .none, bar := 0 }

/-- The weaker of two entries: the lower score, and of equal scores the higher node number (R113). -/
def weaker (a b : Neighbour) : Neighbour :=
  if b.score < a.score ∨ (b.score = a.score ∧ a.node < b.node) then b else a

/-- The entry of role NONE that a new node may replace (R113). -/
def weakest (t : List Neighbour) : Option Neighbour :=
  match t.filter fun e => decide (e.role = .none) with
  | [] => none
  | e :: es => some (es.foldl weaker e)

/-- A beacon is scored into the table (R111, R113). -/
def State.scoreBeacon (s : State) (node phase level : Nat) (accepting closing late : Bool) : State :=
  let q := sampleOf s.params level
  if node = 0 ∨ node = 255 then s
  else if (s.neighbour node).isSome then
    s.modNeighbour node (Neighbour.hear s.params phase q accepting closing late)
  else
    let new := newNeighbour node phase q accepting closing late
    if s.link.table.length < Config.neighbourRoom then s.setTable (s.link.table ++ [new])
    else
      match weakest s.link.table with
      | some e =>
        if e.score < q then s.setTable (s.link.table.map fun x => if x.node = e.node then new else x)
        else s.count .nodesIgnored
      | none => s.count .nodesIgnored

/-- The beacon is kept when its node is serving or target (R112). -/
def State.keepBeacon (s : State) (node : Nat) (k : Kept) : State :=
  match s.neighbour node with
  | some { role := .serving, .. } => { s with link := { s.link with keptServing := some k } }
  | some { role := .target, .. } => { s with link := { s.link with keptTarget := some k } }
  | _ => s

/-- A miss of an entry: misses and score (R114). -/
def Neighbour.miss (p : Nat) (e : Neighbour) : Neighbour :=
  { e with misses := min 15 (e.misses + 1), score := e.score - p }

/-- The entry takes a miss at the end of beacon slot `phase` (R114). -/
def Neighbour.missesAt (phase : Nat) (e : Neighbour) : Bool := decide (e.phase = phase) && !e.heard

/-- One node's miss at the end of a beacon slot, and the drop test (R114). -/
def State.missNode (s : State) (phase node : Nat) : State :=
  match s.neighbour node with
  | some e =>
    if e.missesAt phase then
      let s1 := (s.modNeighbour node (Neighbour.miss s.params.p)).dropTest node
      if e.role = .serving then s1.count .beaconsMissed else s1
    else s
  | none => s

/-- The node's miss at the end of this beacon slot removes it (R114). -/
def State.dropsAt (s : State) (phase node : Nat) : Bool :=
  match s.neighbour node with
  | some e => e.missesAt phase && (e.miss s.params.p).drops s.params.d
  | none => false

/-! ### Candidates -/

/-- An entry is a candidate (R116). -/
def Neighbour.candidate (u : Nat) (e : Neighbour) : Bool :=
  decide (e.role = .none) && e.heard && e.accepting && !e.closing && decide (e.bar = 0) && decide (u ≤ e.score)

/-- The better of two candidates: the higher score, and of equal scores the lower node number (R116). -/
def better (a b : Neighbour) : Neighbour :=
  if a.score < b.score ∨ (a.score = b.score ∧ b.node < a.node) then b else a

/-- The best candidate (R116). -/
def State.bestCandidate (s : State) : Option Neighbour :=
  match s.link.table.filter (Neighbour.candidate s.params.u) with
  | [] => none
  | e :: es => some (es.foldl better e)

/-! ### Draws and join requests -/

/-- One step of the shift register (R121). -/
def lfsrStep (r : Word) : Word :=
  let fb := ((r.getLsbD 0 != r.getLsbD 2) != r.getLsbD 3) != r.getLsbD 5
  (r >>> 1) ||| (if fb then 0x8000 else 0)

/-- The seed for a car number (R121). -/
def lfsrSeed (car : Nat) : Word := if car = 0 then 0x0101 else BitVec.ofNat 16 (car * 257)

/-- A draw is taken: the register is stepped, and the draw is its value (R121). -/
def State.draw (s : State) : State := { s with link := { s.link with lfsr := lfsrStep s.link.lfsr } }

/-- Replace the join request state. -/
def State.setJoin (s : State) (j : JoinRequest) : State := { s with link := { s.link with join := j } }

/-- A join request becomes due in a drawn contention slot (R121). -/
def State.joinDue (s : State) : State :=
  let s' := s.draw
  s'.setJoin { s'.link.join with due := some (60 + s'.link.lfsr.toNat % 4) }

/-- Set the link state. -/
def State.setLink (s : State) (x : LinkState) : State := { s with link := { s.link with state := x } }

/-- A node becomes the target of a first try, its request due in this cycle (R120, R122, R123, R126). -/
def State.chooseTarget (s : State) (node : Nat) : State :=
  let s1 := s.modNeighbour node fun e => { e with role := .target }
  let s2 := { s1 with link := { s1.link with keptTarget := none } }
  (s2.setJoin { JoinRequest.clear with tries := 1 }).joinDue

/-- The link enters SEARCH: no join request, the coarse-aligned flag cleared (R99, R120, R121). -/
def State.toSearch (s : State) : State :=
  let s1 := (s.setLink .search).setJoin JoinRequest.clear
  { s1 with
    link := { s1.link with keptTarget := none, grants := [] }
    timer := { s1.timer with coarse := false } }

/-- The best candidate becomes TARGET and the link JOINING, or the link goes to SEARCH (R122, R123, R126). -/
def State.joinBest (s : State) : State :=
  match s.bestCandidate with
  | some e => (s.chooseTarget e.node).setLink .joining
  | none => s.toSearch

/-! ### OFF and STARTING -/

/-- The link enters OFF in one step (R118). RON falls, so a frame being received is abandoned (R106). -/
def State.enterOff (s : State) : State :=
  { s with
    link := { s.link with
      state := .off, table := [], grants := [], keptServing := none, keptTarget := none
      join := JoinRequest.clear, persist := 0, lastTested := none, prevNode := 0, best := none
      startCount := 0, lock := false }
    fe := { s.fe with rx := none } }

/-- The link enters STARTING: RON high, the count 0, LOCK taken as low (R118). -/
def State.enterStarting (s : State) : State :=
  { s with link := { s.link with state := .starting, startCount := 0, lock := false } }

/-! ### The grant list (R124) -/

/-- The entry names a slot of a grant already in the list. -/
def Grant.meets (first last : Nat) (g : Grant) : Bool := decide (first ≤ g.last) && decide (g.first ≤ last)

/-- One grant entry tested into the list; the number counts entries ignored or cut (R124). -/
def addGrant (acc : List Grant × Nat) (e : GrantEntry) : List Grant × Nat :=
  if e.kind = .up ∨ e.kind = .down then
    if e.count = 0 ∨ e.first < 8 ∨ 59 < e.first then (acc.1, acc.2 + 1)
    else
      let last := e.first + e.count - 1
      let cut := min last 59
      if acc.1.any (Grant.meets e.first cut) then (acc.1, acc.2 + 1)
      else
        (acc.1 ++ [{ up := decide (e.kind = .up), dest := e.car, first := e.first, last := cut }],
          if 59 < last then acc.2 + 1 else acc.2)
  else acc

/-- The grant list is built from a kept beacon, or is empty without one (R124). -/
def State.buildGrants (s : State) (k : Option Kept) : State :=
  let r := match k with
    | some k => k.grants.foldl addGrant ([], 0)
    | none => ([], 0)
  ({ s with link := { s.link with grants := r.1 } } : State).countN .grantsClipped r.2

/-- The first JOIN_ACCEPT or JOIN_REFUSE entry for this car: true for an accept (R122). -/
def Kept.answer (car : Nat) (k : Kept) : Option Bool :=
  (k.grants.find? fun e => decide (e.car = car) &&
    (decide (e.kind = .joinAccept) || decide (e.kind = .joinRefuse))).map fun e => decide (e.kind = .joinAccept)

/-- The beacon holds a RELEASE entry naming this car (R125). -/
def Kept.releases (car : Nat) (k : Kept) : Bool :=
  k.grants.any fun e => decide (e.car = car) && decide (e.kind = .release)

/-- The target's beacon of this cycle holds an accept (R122, R128). -/
def State.accepted (s : State) : Bool :=
  match s.link.keptTarget with
  | some k => decide (k.answer s.link.car = some true)
  | none => false

/-- The target's beacon of this cycle refuses: a JOIN_REFUSE, or CLOSING without an accept (R122, R129). -/
def State.refused (s : State) : Bool :=
  match s.link.keptTarget with
  | some k => decide (k.answer s.link.car ≠ some true) && (decide (k.answer s.link.car = some false) || k.closing)
  | none => false

/-- The serving node's beacon of this cycle releases the car or shows CLOSING (R125, R129). -/
def State.releasedByServing (s : State) : Bool :=
  match s.link.keptServing with
  | some k => k.releases s.link.car || k.closing
  | none => false

/-! ### Losses and switches -/

/-- The handoff persistence is cleared, and the last tested node with it (R126, R127). DESIGN CHOICE
(notes/assumptions/44.md): the last tested node too where R118, R119, R122, R126, R128 and R129 name the count alone. -/
def State.clearPersist (s : State) : State := { s with link := { s.link with persist := 0, lastTested := none } }

/-- The SERVING entry loses its role and becomes the previous node (R121, R126). -/
def State.dropServing (s : State) : State :=
  match s.serving with
  | some e =>
    let s1 := s.loseRole e.node
    { s1 with link := { s1.link with prevNode := e.node, keptServing := none } }
  | none => { s with link := { s.link with keptServing := none } }

/-- The TARGET entry loses its role (R122, R123). -/
def State.dropTarget (s : State) : State :=
  match s.target with
  | some e =>
    let s1 := s.loseRole e.node
    { s1 with link := { s1.link with keptTarget := none } }
  | none => { s with link := { s.link with keptTarget := none } }

/-- The TARGET entry is barred and loses its role, counted as a join refused or unanswered (R122, R123, R129). -/
def State.failTarget (s : State) : State :=
  let s1 := match s.target with
    | some e => s.barNode e.node
    | none => s
  (s1.dropTarget).count .joinsRefused

/-- The part of a serving loss that is the same wherever the link goes next (R126). -/
def State.servingGone (s : State) : State :=
  let s1 := (s.raise .linkLost).revert
  let s2 := { s1 with link := { s1.link with grants := [] } }
  s2.dropServing.clearPersist

/-- A serving loss from SERVED: the best candidate is looked for (R126). -/
def State.servingLoss (s : State) : State := s.servingGone.joinBest

/-- The serving node is barred when its beacon released the car or showed CLOSING (R125, R129). -/
def State.barIfReleased (s : State) : State :=
  if s.releasedByServing then
    match s.serving with
    | some e => s.barNode e.node
    | none => s
  else s

/-- The serving link is lost at this beacon-phase end: released, closing, or Ls misses (R125, R129). -/
def State.servingLost (s : State) : Bool :=
  s.releasedByServing ||
    match s.serving with
    | some e => decide (s.params.ls ≤ e.misses)
    | none => false

/-- The downlink receive record is cleared (R141). -/
def State.clearReceive (s : State) : State :=
  { s with fe := { s.fe with rxBase := 0, rxMap := 0, ackPending := false } }

/-- The TARGET entry becomes SERVING, the link SERVED, and the target's beacon the serving node's (R112, R122,
R128). -/
def State.promoteTarget (s : State) : State :=
  let s1 := match s.target with
    | some e => s.modNeighbour e.node fun e => { e with role := .serving }
    | none => s
  { s1 with link := { s1.link with
      state := .served, keptServing := s1.link.keptTarget, keptTarget := none, join := JoinRequest.clear
      persist := 0, lastTested := none } }

/-- A JOIN_ACCEPT in JOINING (R122); the fresh-start flag is cleared (R143). -/
def State.joinAccept (s : State) : State :=
  let s1 := (s.promoteTarget.raise .linkUp).clearReceive
  let s2 := { s1 with fe := { s1.fe with freshStart := false } }
  s2.buildGrants s2.link.keptServing

/-- The handoff switch (R128). -/
def State.switch (s : State) : State :=
  let s1 := s.dropServing.promoteTarget.revert.clearReceive
  ((s1.buildGrants s1.link.keptServing).raise .handoffDone).count .handoffs

/-! ### The beacon-phase end -/

/-- The request goes unanswered: the count of beacon-phase ends since it was sent reaches 2 (R123, R129). -/
def JoinRequest.unansweredNow (j : JoinRequest) : Bool := j.sent && decide (2 ≤ j.ends + 1)

/-- Step 2 of R123: a request neither due nor sent waits, or becomes due. -/
def State.joinWait (s : State) : State :=
  let j := s.link.join
  if j.due.isNone && !j.sent then
    if j.wait = 0 then s.joinDue else s.setJoin { j with wait := j.wait - 1 }
  else s

/-- An unanswered request with the try count below 6 backs off (R123). DESIGN CHOICE (notes/assumptions/26.md): the count of
beacon-phase ends is put to 0 here, where R123 leaves it at 2 until the next sending. -/
def State.backOff (s : State) : State :=
  let s1 := (s.count .joinsRefused).draw
  let j := s1.link.join
  s1.setJoin { j with
    tries := j.tries + 1, wait := s1.link.lfsr.toNat % 2 ^ j.tries, sent := false, ends := 0 }

/-- JOINING without an answer (R123). -/
def State.joinAdvance (s : State) : State :=
  let j := s.link.join
  if j.unansweredNow then
    if j.tries < 6 then s.backOff.joinWait else s.failTarget.joinBest
  else if j.sent then s.setJoin { j with ends := j.ends + 1 }
  else s.joinWait

/-- The beacon-phase end in JOINING (R122, R123). -/
def State.joiningEnd (s : State) : State :=
  if s.accepted then s.joinAccept
  else if s.refused then s.failTarget.joinBest
  else s.joinAdvance

/-- The link goes to HANDOFF with this target (R127). -/
def State.enterHandoff (s : State) (node : Nat) : State := ((s.chooseTarget node).setLink .handoff).clearPersist

/-- The handoff test (R127). -/
def State.handoffTest (s : State) : State :=
  match s.bestCandidate, s.serving with
  | some c, some e =>
    if e.score + s.params.hm ≤ c.score then
      let n := if s.link.lastTested = some c.node then s.link.persist + 1 else 1
      if s.params.k ≤ n then s.enterHandoff c.node
      else { s with link := { s.link with persist := n, lastTested := some c.node } }
    else s.clearPersist
  | _, _ => s.clearPersist

/-- The beacon-phase end in SERVED (R125). -/
def State.servedEnd (s : State) : State :=
  let s1 := s.buildGrants s.link.keptServing
  if s1.servingLost then s1.barIfReleased.servingLoss else s1.handoffTest

/-- A handoff that fails: the target is barred and the link returns to SERVED (R129). -/
def State.handoffFail (s : State) : State :=
  ((s.failTarget.setLink .served).setJoin JoinRequest.clear).clearPersist

/-- The serving node is lost in HANDOFF: the link goes on JOINING with the same target (R129). -/
def State.handoffLoss (s : State) : State :=
  let s1 := s.barIfReleased.servingGone.setLink .joining
  s1.setJoin { s1.link.join with tries := 1 }

/-- The beacon-phase end in HANDOFF (R128, R129). -/
def State.handoffEnd (s : State) : State :=
  if s.accepted then s.switch
  else
    let s1 := s.buildGrants s.link.keptServing
    if s1.servingLost then s1.handoffLoss.joiningEnd
    else if s1.refused || s1.link.join.unansweredNow then s1.handoffFail
    else if s1.link.join.sent then s1.setJoin { s1.link.join with ends := s1.link.join.ends + 1 }
    else s1

/-- The best candidate found is kept for the status record (R116, R162). -/
def State.noteBest (s : State) : State :=
  { s with link := { s.link with best := s.bestCandidate.map fun e => (e.node, e.score) } }

/-- The Link Controller's processing of the beacon-phase end (R116, R120 to R129). -/
def State.phaseEnd (s : State) : State :=
  match s.link.state with
  | .off | .starting => s
  | .search =>
    let s1 := s.noteBest
    match s1.bestCandidate with
    | some e => s.watchReference ((s1.chooseTarget e.node).setLink .joining)
    | none => s1
  | .joining => s.watchReference s.noteBest.joiningEnd
  | .served => s.watchReference s.noteBest.servedEnd
  | .handoff => s.watchReference s.noteBest.handoffEnd

/-! ### Holdover expiry and LOCK -/

/-- The timing loss told to the Link Controller: JOINING, SERVED or HANDOFF goes to SEARCH with LINK_LOST (R102,
R126). -/
def State.timingLoss (s : State) : State :=
  match s.link.state with
  | .joining => s.watchReference (((s.raise .linkLost).dropTarget).toSearch)
  | .served => s.watchReference s.servingGone.toSearch
  | .handoff => s.watchReference s.servingGone.dropTarget.toSearch
  | .off | .starting | .search => s

/-- The link change of a LOCK fall (R119). -/
def State.lockLost (s : State) : State :=
  let s1 := if s.link.state = .served ∨ s.link.state = .handoff then s.raise .linkLost else s
  let s2 := s1.revert.dropServing.dropTarget
  let s3 := { s2 with link := { s2.link with grants := [], join := JoinRequest.clear } }
  s.watchReference s3.clearPersist.enterStarting

end Sys2Proof.Machine
end

