-- ==== Sys2Proof/Machine/Frames.lean ====
section
/-! DEFINITION. The Frame Engine (spec/08) and the frame layouts (spec/12 section 12.3): uplink frames and join
requests, the sent-frame list, and the frames received. -/

namespace Sys2Proof.Machine

/-! ### Received frames (R178, R179) -/

/-- An ack entry of a beacon (R178). -/
structure AckEntry where
  car : Nat
  base : BitVec 8
  map : Word
deriving DecidableEq, Repr

/-- A beacon's fields (R178). -/
structure Beacon where
  node : Nat
  phase : Nat
  cycle : Word
  accepting : Bool
  closing : Bool
  grants : List GrantEntry
  acks : List AckEntry
deriving DecidableEq, Repr

/-- A downlink frame's fields (R178). -/
structure Downlink where
  node : Nat
  dest : Nat
  seq : BitVec 8
  records : List Delivery
deriving DecidableEq, Repr

/-- What a received frame is (R133). -/
inductive RxFrame where
  | beacon (b : Beacon)
  | downlink (d : Downlink)
  | foreign
  | bad
deriving DecidableEq, Repr

/-- Grant entry `i` of a beacon body; an unknown grant kind is not read (R179). -/
def grantAt (b : List Byte) (i : Nat) : Option GrantEntry :=
  let at4 := 7 + 4 * i
  (grantKind? (numAt b (at4 + 3))).map fun k =>
    { car := numAt b at4, first := numAt b (at4 + 1), count := numAt b (at4 + 2), kind := k }

/-- Ack entry `i` of a beacon body with `g` grant entries (R178). -/
def ackAt (b : List Byte) (g i : Nat) : AckEntry :=
  let at4 := 7 + 4 * g + 4 * i
  { car := numAt b at4, base := byteAt b (at4 + 1), map := airWordAt b (at4 + 2) }

/-- The fields of a beacon body (R178). -/
def beaconOf (b : List Byte) : Beacon :=
  let g := numAt b 0 % 32
  { node := numAt b 1, phase := numAt b 2, cycle := airWordAt b 3
    accepting := (byteAt b 5).getLsbD 0, closing := (byteAt b 5).getLsbD 1
    grants := (List.range g).filterMap (grantAt b)
    acks := (List.range (numAt b 6)).map (ackAt b g) }

/-- `n` pieces of 16 bytes each. -/
def pieces16 : Nat → List Byte → List (List Byte)
  | 0, _ => []
  | n + 1, b => b.take 16 :: pieces16 n (b.drop 16)

/-- The records from position `pos` of a body, and where they end; none when a granule count is 0 or above 14 or
the body would pass 256 bytes (R179). -/
def recordsAt (b : List Byte) : Nat → Nat → Option (List Delivery × Nat)
  | 0, pos => some ([], pos)
  | k + 1, pos =>
    let n := numAt b (pos + 5)
    let next := pos + 6 + 16 * n
    if n = 0 ∨ 14 < n ∨ 256 < next then none
    else
      match recordsAt b k next with
      | some (rs, stop) =>
        some ({ topic := (airWordAt b pos).toNat % 1024, revision := airWordAt b (pos + 2)
                first := numAt b (pos + 4), data := pieces16 n (b.drop (pos + 6)) } :: rs, stop)
      | none => none

/-- The body's length and its meaning as the kind and counts give them (R178, R179); none when the frame is ended
before its CRC. -/
def readBody (b : List Byte) : Option (Nat × RxFrame) :=
  let kind := numAt b 0 / 32
  let count := numAt b 0 % 32
  if kind = 1 then
    if 16 < count ∨ 16 < numAt b 6 then none
    else
      let bc := beaconOf b
      some (7 + 4 * count + 4 * numAt b 6, if bc.phase ≤ 7 then .beacon bc else .foreign)
  else if kind = 2 then
    if 11 < count then none else (recordsAt b count 7).map fun r => (r.2, .foreign)
  else if kind = 3 then
    if 11 < count then none
    else (recordsAt b count 4).map fun r =>
      (r.2, .downlink { node := numAt b 1, dest := numAt b 2, seq := byteAt b 3, records := r.1 })
  else if kind = 4 then some (5, .foreign)
  else none

/-- What the bytes taken after a delimiter are: the body by its own counts, then a CRC that must match (R132, R133;
notes/assumptions/15.md for bytes that stop early). -/
def classify (bytes : List Byte) : RxFrame :=
  match readBody bytes with
  | some (len, f) =>
    if len + 2 ≤ bytes.length ∧ crc16 (bytes.take len) = airWordAt bytes len then f else .bad
  | none => .bad

/-! ### Sending -/

/-- A frame starts: TXK is asserted and the part does not listen in the slot (R106, R107). Reads left over from an
earlier frame no longer feed one (notes/assumptions/16.md). -/
def State.startFrame (s : State) (body : List Byte) : State :=
  { s with fe := { s.fe with
      tx := some { body := body }
      listening := false, down := none
      reads := s.fe.reads.map fun j => { j with ofFrame := false } } }

/-- TXK is released (R107). -/
def State.releaseTx (s : State) : State :=
  { s with fe := { s.fe with
      tx := none, reads := s.fe.reads.map fun j => { j with ofFrame := false } } }

/-- The header of an uplink frame (R135, R178). -/
def State.uplinkHeader (s : State) (records node : Nat) : List Byte :=
  [byteOf (2 * 32 + records), byteOf s.link.car, byteOf node, s.fe.nextSeq, s.fe.rxBase] ++ airWord s.fe.rxMap

/-- The read of a taken entry's record (R136). -/
def Entry.readJob (e : Entry) : ReadJob :=
  { win := e.win, first := e.first, last := e.last, bestEffort := !e.acked, ofFrame := true, purged := false }

/-- A frame that starts takes the next sequence and a place in the sent-frame list, and its records wait to be read
(R135 to R137, R141). DESIGN CHOICE (notes/assumptions/16.md): they wait behind the reads left of a frame cut off before,
an order that R136 leaves open. -/
def State.recordFrame (s : State) (taken : List Entry) (record : SentFrame) : State :=
  { s with fe := { s.fe with
      nextSeq := s.fe.nextSeq + 1
      sentInCycle := s.fe.sentInCycle + 1
      sent := s.fe.sent ++ [record]
      ackPending := false
      reads := s.fe.reads ++ taken.map Entry.readJob } }

/-- The selection step: entries taken, granules IN_FLIGHT, the frame's sequence, record and header (R62 to R64, R135,
R137). DESIGN CHOICE (notes/assumptions/7.md): the cycle recorded is the local cycle number when the slot's share is taken,
also where a beacon has set that number since the slot-start event began. -/
def State.buildFrame (s : State) (stay taken : List Entry) (node : Nat) : State :=
  let s1 := s.setEntries stay
  let s2 := taken.foldl (fun t e => t.moveGrans e fun _ => .inFlight) s1
  let body := s.uplinkHeader taken.length node
  let record : SentFrame :=
    { seq := s.fe.nextSeq, cycle := s.timer.cycle
      carried := (taken.filter Entry.acked).map fun e => (e.win, e.first) }
  let s4 := ((s2.startFrame body).count .sent).recordFrame taken record
  if taken.all Entry.acked then s4 else s4.backlogScan

/-- A granted UP slot (R134). -/
def State.upSlot (s : State) (node : Nat) : State :=
  if Config.framesPerCycle ≤ s.fe.sentInCycle ∨ Config.sentRoom ≤ s.fe.sent.length then s.count .slotsUnused
  else
    let sel := s.selection
    if !sel.2.isEmpty || s.fe.ackPending then s.buildFrame sel.1 sel.2 node else s

/-- The reason of a join request (R143, R178). -/
def State.joinReason (s : State) : Nat :=
  if s.link.state = .handoff then 3 else if s.fe.freshStart then 1 else 2

/-- The previous-node field of a join request: the serving node in HANDOFF, the previous node in JOINING (R121). -/
def State.joinPrev (s : State) : Nat :=
  if s.link.state = .handoff then (s.serving.map Neighbour.node).getD 0 else s.link.prevNode

/-- A join request is built and sent (R121, R143). -/
def State.sendJoin (s : State) : State :=
  let node := (s.target.map Neighbour.node).getD 0
  let body := [byteOf (4 * 32), byteOf s.link.car, byteOf node, byteOf s.joinPrev, byteOf s.joinReason]
  (s.startFrame body).setJoin { s.link.join with due := none, sent := true, ends := 0 }

/-- The grant of the cycle's list, UP or DOWN, that covers a slot (R117). -/
def State.grantFor (s : State) (up : Bool) (k : Nat) : Option Grant :=
  s.link.grants.find? fun g => decide (g.up = up) && decide (g.first ≤ k) && decide (k ≤ g.last)

/-- The setting of a slot: whether the part listens, and the destination of its DOWN grant (R106, R117). -/
def State.setSlot (s : State) (listening : Bool) (down : Option Nat) : State :=
  { s with fe := { s.fe with listening := listening, down := down } }

/-- A join request due in this slot is sent (R143). -/
def State.joinIfDue (s : State) (k : Nat) : State := if s.link.join.due = some k then s.sendJoin else s

/-- A granted UP slot of the serving node is used (R134). -/
def State.useUp (s : State) (k : Nat) : State :=
  match s.grantFor true k, s.serving with
  | some _, some e => s.upSlot e.node
  | _, _ => s

/-- A slot in SERVED or HANDOFF (R117, R134). -/
def State.servedSlot (s : State) (k : Nat) : State :=
  let down := (s.grantFor false k).map Grant.dest
  (s.setSlot (decide (k ≤ 7) || down.isSome) down).useUp k

/-- The settings, frames and join requests of the slot begun (R117, R134, R143). -/
def State.beginSlot (s : State) (k : Nat) : State :=
  match s.link.state with
  | .off | .starting => s.setSlot false none
  | .search => s.setSlot true none
  | .joining => (s.setSlot (decide (k ≤ 7)) none).joinIfDue k
  | .served => s.servedSlot k
  | .handoff => (s.servedSlot k).joinIfDue k

/-! ### Record reads -/

/-- The publication record of a run of granules: topic, revision, first granule, count and bytes of the publishing
image, as they stand (R51, R136, R178). DESIGN CHOICE (notes/assumptions/16.md): when the place was purged and defined
afresh since the selection, these are those of the definition that stands, a case that R136 leaves open; a SUBSCRIBE or
STATUS definition, which has no publishing image, gives the bytes of its first map, a STATUS definition topic 0, and a granule
past the new window's end the bytes of pool granule 0. -/
def State.recordBytes (s : State) (w : Window) (first last : Nat) : List Byte :=
  let topic := match w.defn.body with
    | .publish d => d.topic
    | .subscribe d => d.topic
    | .status => 0
  let map := match w.mode? with
    | some (.onTrigger _) => w.mapB
    | _ => w.mapA
  let gs := runOf first last
  airWord (BitVec.ofNat 16 topic) ++ airWord w.pub.revision ++ [byteOf first, byteOf gs.length]
    ++ gs.flatMap fun g => s.granule map g

/-- The end of a read: a best-effort record's granules go IDLE, or WANTED and are queued again (R64). -/
def State.readEnds (s : State) (j : ReadJob) : State :=
  if j.bestEffort && !j.purged then
    (s.modWin j.win (·.mapGrans j.first j.last .settled)).queueRun j.win j.first j.last
  else s

/-- Bytes go out on FTX behind the frame's bytes so far. -/
def State.appendTx (s : State) (bytes : List Byte) : State :=
  { s with fe := { s.fe with tx := s.fe.tx.map fun (t : Transmission) => { body := t.body ++ bytes } } }

/-- The bytes of one record read go into its frame, while that frame is on the air (R136). DESIGN CHOICE
(notes/assumptions/16.md): when the place has gone FREE since, TXK is released at once and FTX's record stays as it was; when
it has been defined afresh, the record is read from the definition that stands. -/
def State.readInto (s : State) (j : ReadJob) : State :=
  if j.ofFrame then
    match s.win j.win with
    | some w => s.appendTx (s.recordBytes w j.first j.last)
    | none => s.releaseTx
  else s

/-- One record read under its grant (R136). -/
def State.readRecord (s : State) (j : ReadJob) (rest : List ReadJob) : State :=
  (({ s with fe := { s.fe with reads := rest } } : State).readInto j).readEnds j

/-- The frame in transmission has record reads to come. -/
def State.frameReadsLeft (s : State) : Bool := s.fe.reads.any ReadJob.ofFrame

/-- The Frame Engine's grant in progress is for a read of the frame being sent. -/
def State.readInProgress (s : State) : Bool :=
  decide (s.port = some .frame) && s.fe.writing.isNone && s.fe.reads.head?.any ReadJob.ofFrame

/-- The reads of the frame being sent are ended, in order, with the grant of one of them; the reads of a frame cut off
before go on to their own grants (R64, R136). -/
def State.abandonReads (s : State) : State :=
  let s1 := if s.readInProgress then s.endGrant else s
  (s.fe.reads.filter ReadJob.ofFrame).foldl State.readEnds
    { s1 with fe := { s1.fe with reads := s.fe.reads.filter fun j => !j.ofFrame } }

/-! ### Acknowledgement and loss of frames -/

/-- An ack entry acknowledges a sent-frame record (R138). -/
def AckEntry.acks (a : AckEntry) (f : SentFrame) : Bool :=
  let d := (a.base - f.seq).toNat
  decide (d ≤ 15) && a.map.getLsbD d

/-- One ack entry matched against the sent-frame list (R138). -/
def State.matchAck (s : State) (a : AckEntry) : State :=
  let hit := s.fe.sent.filter a.acks
  let s1 := s.setSent (s.fe.sent.filter fun f => !a.acks f)
  hit.foldl (fun t f => (t.acknowledge f).count .acked) s1

/-- A beacon's ack entries: read only from the serving node, and only those that name this car (R138). -/
def State.matchAcks (s : State) (node : Nat) (acks : List AckEntry) : State :=
  if (s.link.state = .served ∨ s.link.state = .handoff) ∧ s.serving.map Neighbour.node = some node then
    (acks.filter fun a => decide (a.car = s.link.car) && decide (a.car ≠ 0)).foldl State.matchAck s
  else s

/-- A record is past its deadline: sent in neither this cycle nor the one before (R139). -/
def SentFrame.late (cycle : Word) (f : SentFrame) : Bool :=
  decide (f.cycle ≠ cycle) && decide (f.cycle ≠ cycle - 1)

/-- One record is declared lost (R139). -/
def State.loseRecord (s : State) (f : SentFrame) : State :=
  ((s.setSent (s.fe.sent.filter fun x => decide (x ≠ f))).loseFrame f).count .lost

/-- The loss deadline: every late record is declared lost, in list order (R139). -/
def State.loseLate (s : State) : State :=
  (s.fe.sent.filter (SentFrame.late s.timer.cycle)).foldl State.loseRecord s

/-! ### Downlink frames -/

/-- The receive record after a directed frame with sequence `n` (R141). -/
def State.receiveSeq (s : State) (n : BitVec 8) : State :=
  let d := (n - s.fe.rxBase).toNat
  let back := (s.fe.rxBase - n).toNat
  let r : BitVec 8 × Word :=
    if s.fe.rxMap = 0 then (n, 1)
    else if d = 0 then (s.fe.rxBase, s.fe.rxMap)
    else if d ≤ 127 then (n, (s.fe.rxMap <<< d) ||| 1)
    else if back ≤ 15 then (s.fe.rxBase, s.fe.rxMap ||| ((1 : Word) <<< back))
    else (s.fe.rxBase, s.fe.rxMap)
  { s with fe := { s.fe with rxBase := r.1, rxMap := r.2, ackPending := true } }

/-- A downlink frame is accepted: it comes from the serving node, to this car or to all, in a slot granted DOWN to
the same destination (R140). -/
def State.acceptsDownlink (s : State) (r : Reception) (d : Downlink) : Bool :=
  (decide (s.link.state = .served) || decide (s.link.state = .handoff)) &&
  decide (s.serving.map Neighbour.node = some d.node) &&
  (decide (d.dest = s.link.car) || decide (d.dest = 0)) && decide (r.down = some d.dest)

/-- A frame's records are held for delivery (R142). -/
def State.holdRecords (s : State) (l : List Delivery) : State :=
  { s with fe := { s.fe with delivery := s.fe.delivery ++ [l] } }

/-- A downlink frame at its dispatch (R140 to R142). DESIGN CHOICE (notes/assumptions/45.md): one without records holds no
delivery buffer, which R142 leaves open. -/
def State.takeDownlink (s : State) (r : Reception) (d : Downlink) : State :=
  if s.acceptsDownlink r d then
    let s1 := s.count .downlinks
    let s2 := if d.dest = 0 then s1 else s1.receiveSeq d.seq
    if d.records.isEmpty then s2 else s2.holdRecords d.records
  else s

end Sys2Proof.Machine
end

