-- ==== Sys2Proof/Machine/Timing.lean ====
section
/-! DEFINITION. The Cycle Timer (spec/06): the phase and its events, phase steps, fine correction, realign, coarse
alignment and the holdover test. An event is posted as the blocks' shares of it (`State.due`); Machine/Events.lean takes
them (notes/assumptions/7.md). -/

namespace Sys2Proof.Machine

/-! ### Phase and slots -/

/-- The slot index of a phase: its top 6 bits (R91). -/
def slotOf (phi : BitVec 40) : Nat := phi.toNat / 2 ^ 34

/-- The increment I of a tick (R91). -/
def Timer.increment (t : Timer) : Nat := (524288 + t.trim).toNat

/-- The ticks until the slot index changes (R92). -/
def Timer.ticksToSlot (t : Timer) : Nat :=
  (2 ^ 34 - t.phi.toNat % 2 ^ 34 + t.increment - 1) / t.increment

/-- Replace the Cycle Timer. -/
def State.setTimer (s : State) (t : Timer) : State := { s with timer := t }

/-! ### Posting events -/

/-- The windows that wait for a cycle-start event, PENDING or CLOSING (R35). -/
def State.waitingWindows (s : State) : List WinNo :=
  s.placesWhere fun w => decide (w.state = .pending) || decide (w.state = .closing)

/-- The shares of a cycle-start event of this local cycle number, in the order they are taken when nothing orders them
otherwise (06 section 6.1). -/
def State.cycleDuties (s : State) (cycle : Word) : List Duty :=
  [.windows s.waitingWindows cycle, .linkCycle, .journalAge]
    ++ (s.placesWhere fun w => decide (w.state = .live) && w.isPublish).map Duty.refresh
    ++ (s.placesWhere fun w => decide (w.state = .live) && w.sub?.isSome).map Duty.overlayAge
    ++ groups1to7.map Duty.stagingAge ++ [.served]

/-- The shares of the slot-start event that begins slot `k` and ends slot `ended` (06 section 6.1, R92). -/
def State.slotDuties (s : State) (k ended : Nat) : List Duty :=
  (if ended ≤ 7 then
      (s.link.table.filter fun e => decide (e.phase = ended)).map fun e => Duty.miss ended e.node
    else [])
    ++ [.starting] ++ (if k = 8 then [.phaseEnd, .lost, .holdover] else []) ++ [.slot k]

/-- A cycle-start event: the local cycle number goes up by 1 (R93). -/
def State.postCycle (s : State) : State :=
  let cycle := s.timer.cycle + 1
  { s with timer := { s.timer with cycle := cycle }, due := s.due ++ s.cycleDuties cycle }

/-- A slot-start event for slot `k`: L becomes `k` (R92). -/
def State.postSlot (s : State) (k ended : Nat) : State :=
  { s with timer := { s.timer with last := k }, due := s.due ++ s.slotDuties k ended }

/-- The slot-start test of R92 and R100 after the phase has moved on from slot `ended`. -/
def State.enterSlot (s : State) (ended : Nat) : State :=
  let k := slotOf s.timer.phi
  if k ≠ ended ∧ k ≠ s.timer.last then s.postSlot k ended else s

/-- The phase wraps in running: a cycle-start event, or the suppression is cleared (R93). -/
def State.wrap (s : State) : State :=
  if s.timer.suppress then s.setTimer { s.timer with suppress := false } else s.postCycle

/-- `n` ticks that change the slot index at most once, at the last of them (R91 to R93). -/
def State.advance (s : State) (n : Nat) : State :=
  let sum := s.timer.phi.toNat + n * s.timer.increment
  let s1 := s.setTimer { s.timer with phi := BitVec.ofNat 40 sum }
  (if 2 ^ 40 ≤ sum then s1.wrap else s1).enterSlot (slotOf s.timer.phi)

/-- The ticks up to the next slot boundary. -/
def State.toBoundary (s : State) : State := s.advance s.timer.ticksToSlot

/-- A share of a slot-start event. -/
def Duty.ofSlot : Duty → Bool
  | .miss _ _ | .starting | .phaseEnd | .lost | .holdover | .slot _ => true
  | .windows _ _ | .linkCycle | .journalAge | .refresh _ | .overlayAge _ | .stagingAge _ | .served => false

/-- A neighbour's miss (R114). -/
def Duty.isMiss : Duty → Bool
  | .miss _ _ => true
  | .windows _ _ | .linkCycle | .journalAge | .refresh _ | .overlayAge _ | .stagingAge _ | .served => false
  | .starting | .phaseEnd | .lost | .holdover | .slot _ => false

/-- A share of a cycle-start event. -/
def Duty.ofCycle (d : Duty) : Bool := !d.ofSlot

/-! ### Phase steps (R100) -/

/-- A forward step by `k` whole ticks: a cycle-start event across the wrap, whatever the suppression flag, then the
slot-start event of the slot it lands in (R100). -/
def State.stepForward (s : State) (k : Nat) : State :=
  let sum := s.timer.phi.toNat + k * 2 ^ 19
  let s1 := s.setTimer { s.timer with phi := BitVec.ofNat 40 sum }
  (if 2 ^ 40 ≤ sum then (s1.setTimer { s1.timer with suppress := false }).postCycle else s1).enterSlot
    (slotOf s.timer.phi)

/-- A backward step by `k` whole ticks: no event; across the wrap the suppression flag is set (R100). -/
def State.stepBackward (s : State) (k : Nat) : State :=
  s.setTimer { s.timer with
    phi := s.timer.phi - BitVec.ofNat 40 (k * 2 ^ 19)
    suppress := s.timer.suppress || decide (s.timer.phi.toNat < k * 2 ^ 19) }

/-- Move the phase by whole ticks, forward or backward, with the events of R100. -/
def State.stepPhase (s : State) (k : Int) : State :=
  if 0 ≤ k then s.stepForward k.toNat else s.stepBackward (-k).toNat

/-! ### Beacons and the phase (R95 to R99) -/

/-- The expected phase of a beacon of phase `p` (R95). -/
def expectedPhase (lam p : Nat) : BitVec 40 := BitVec.ofNat 40 (p * 2 ^ 34 + lam * 2 ^ 19)

/-- The error in whole ticks, rounded toward zero (R95). -/
def errorTicks (expected actual : BitVec 40) : Int := (expected - actual).toInt.tdiv (2 ^ 19)

/-- The phase step of a fine correction: e × Kp / 16 toward zero (R96). -/
def fineStep (kp : Nat) (e : Int) : Int := (e * kp).tdiv 16

/-- The trim change: e × Ki / 64, rounded half away from zero (R96). -/
def trimChange (ki : Nat) (e : Int) : Int :=
  if 0 ≤ e then (((e * ki).toNat + 32) / 64 : Nat) else -((((-e) * ki).toNat + 32) / 64 : Nat)

/-- The trim clamped to its range (R91, R96). -/
def clampTrim (t : Int) : Int := max (-128) (min 127 t)

/-- The cycle number a beacon implies for a phase (R97). -/
def impliedCycle (phi : BitVec 40) (beacon : Word) : Word := if 32 ≤ slotOf phi then beacon - 1 else beacon

/-- The trim change of a fine correction and its completion, after the step (R96, R97). -/
def State.finishCorrect (s : State) (e : Int) (cycle : Word) : State :=
  let wanted := s.timer.trim + trimChange s.params.ki e
  let s1 := s.setTimer { s.timer with
    trim := clampTrim wanted, cycle := impliedCycle s.timer.phi cycle, run := 0, timing := .locked, holdover := 0 }
  if clampTrim wanted = wanted then s1 else s1.raise .trimLimit

/-- The phase and cycle number set from a beacon, with no events (R98, R99, R100). -/
def Timer.align (t : Timer) (phi : BitVec 40) (cycle : Word) : Timer :=
  { t with phi := phi, cycle := cycle, last := slotOf phi, suppress := false }

/-- The realign (R98). -/
def State.realign (s : State) (expected : BitVec 40) (cycle : Word) : State :=
  (s.setTimer { s.timer.align expected cycle with run := 0, taken := true }).count .realigns

/-- A reference beacon with a large error (R98). -/
def State.largeError (s : State) (expected : BitVec 40) (cycle : Word) : State :=
  if 3 ≤ s.timer.run + 1 then s.realign expected cycle
  else s.setTimer { s.timer with run := s.timer.run + 1 }

/-- The error of a beacon is large (R95). -/
def largeErr (e : Int) : Bool := decide (16384 < e.natAbs)

/-- A beacon of any other node: it aligns a FREE timer once in SEARCH (R99). -/
def State.coarseAlign (s : State) (expected : BitVec 40) (cycle : Word) : State :=
  if s.link.state = .search ∧ s.timer.timing = .free ∧ s.timer.coarse = false then
    s.setTimer { s.timer.align expected cycle with coarse := true }
  else s

/-! ### Holdover (R101, R102) -/

/-- The holdover count after a test that finds the flag clear. -/
def Timer.holdoverNext (t : Timer) : Nat := min 255 (t.holdover + 1)

/-- The holdover test at this moment expires the timing (R101). -/
def State.holdoverEnds (s : State) : Bool :=
  decide (s.timer.timing ≠ .free) && !s.timer.taken && decide (s.params.hl ≤ s.timer.holdoverNext)

/-- Holdover expiry (R102). -/
def State.expireHoldover (s : State) : State :=
  (s.setTimer { s.timer with timing := .free, holdover := 0, run := 0, coarse := false }).timingLoss

/-- The holdover test of a beacon-phase end (R101). -/
def State.holdoverTest (s : State) : State :=
  let s1 :=
    if s.timer.timing = .free ∨ s.timer.taken then s
    else if s.holdoverEnds then s.expireHoldover
    else s.setTimer { s.timer with holdover := s.timer.holdoverNext, timing := .holdover }
  s1.setTimer { s1.timer with taken := false }

end Sys2Proof.Machine
end

