-- ==== Sys2Proof/Machine/Mailbox.lean ====
section
/-! DEFINITION. The mailbox protocol (spec/09 sections 9.1 to 9.3): taking, completing and acknowledging commands,
lost writes, and the snapshot. -/

namespace Sys2Proof.Machine

/-- Replace the mailbox. -/
def State.setMbox (s : State) (m : Mailbox) : State := { s with mbox := m }

/-- The mailbox state a result leaves (R149). -/
def ResultCode.endState (r : ResultCode) : MailboxState := if r = .ok then .done else .fail

/-- Completion: the response block is built in one step and MAILBOX_DONE is raised (R149). -/
def State.completeAs (s : State) (echo : Word) (r : ResultCode) (data : List Byte) : State :=
  ({ s with mbox := { s.mbox with
      state := r.endState
      work := .none
      response :=
        { result := r, echo := echo, prevCommand := s.mbox.prevCommand, prevResult := s.mbox.prevResult
          overrun := s.mbox.overrun, lostWrite := s.mbox.lostWrite, data := data } } } : State).raise .mailboxDone

/-- Completion of the command being executed (R149). -/
def State.complete (s : State) (r : ResultCode) (data : List Byte) : State := s.completeAs s.mbox.code r data

/-- The result is acknowledged: echo and result go to the previous-command fields, the state to READY (R150). -/
def State.ackResult (s : State) : State :=
  { s with mbox := { s.mbox with
      state := .ready
      prevCommand := s.mbox.response.echo
      prevResult := s.mbox.response.result } }

/-- A command is taken: BUSY, notes cleared, the snapshot requested (R146). -/
def State.takeCommand (s : State) (value : Word) : State :=
  { s with mbox := { s.mbox with
      state := .busy, code := value, work := .snapshot, overrun := false, lostWrite := false } }

/-- A command-word write in READY (R146; notes/assumptions/17.md for the notes of a parity failure). -/
def State.readyWrite (s : State) (value : Word) (bad : Bool) : State :=
  if bad then s.completeAs value .parity [0]
  else if value = 0 then s
  else s.takeCommand value

/-- A command-word write handed to the Mailbox Unit (R146, R148, R150). -/
def State.commandWrite (s : State) (value : Word) (bad : Bool) : State :=
  match s.mbox.state with
  | .ready => s.readyWrite value bad
  | .busy => if bad ∨ value ≠ 0 then { s with mbox := { s.mbox with overrun := true } } else s
  | .done | .fail => s.ackResult.readyWrite value bad

/-- A window 0 write was lost (R151). -/
def State.lostWrite (s : State) : State :=
  match s.mbox.state with
  | .ready => s.completeAs 0 .captureLost []
  | .busy => { s with mbox := { s.mbox with lostWrite := true } }
  | .done | .fail => s.ackResult.completeAs 0 .captureLost []

/-! ### The snapshot (R146, R147) -/

/-- Parameter words 1 to 63 with their parity-bad flags, as the window 0 image holds them. -/
def State.paramWords (s : State) : List (Word × Bool) :=
  (List.range 63).map fun i => (s.win0Word (i + 1), s.win0.bad.getD (i + 1) false)

/-- The snapshot under its grant: the parameter words are copied, the image's flags of those words cleared, and the grant
ends (R146). -/
def State.takeSnapshot (s : State) : State :=
  let s1 := s.endGrant
  { s1 with
    mbox := { s1.mbox with snapshot := s.paramWords, work := .checks }
    win0 := { s1.win0 with bad := s.win0.bad.mapIdx fun i b => if 1 ≤ i ∧ i ≤ 63 then false else b } }

/-- Parameter word `k` of the snapshot (R147). -/
def State.param (s : State) (k : Nat) : Word := (s.mbox.snapshot.getD (k - 1) (0, false)).1

/-- Parameter word `k` as a number. -/
def State.paramNat (s : State) (k : Nat) : Nat := (s.param k).toNat

/-- Parameter word `k` holds a parity-bad flag. -/
def State.paramBad (s : State) (k : Nat) : Bool := (s.mbox.snapshot.getD (k - 1) (0, false)).2

/-- The command's snapshot is under way under the Mailbox Unit's grant (R38, R146). -/
def State.snapshotGranted (s : State) : Bool :=
  decide (s.mbox.state = .busy) && decide (s.mbox.work = .snapshot) && decide (s.port = some .mailbox)

/-- The command in BUSY at its checks: its snapshot was taken before, or is taken now under its grant (R146, R147). -/
def State.atChecks (s : State) : Option State :=
  if s.snapshotGranted then some s.takeSnapshot
  else if s.mbox.state = .busy ∧ s.mbox.work = .checks then some s
  else none

/-- A command at its checks, when it is the one a row names; else the row changes nothing (notes/assumptions/11.md). -/
def State.onCommand (s : State) (names : State → Bool) (f : State → State) : State :=
  match s.atChecks with
  | some t => if names t then f t else s
  | none => s

/-- The parity check of a command's parameter block, words 1 to `words` (R147), then its own conditions and effect. -/
def State.checkWords (s : State) (words : Nat) (body : State → State) : State :=
  match ((List.range words).map (· + 1)).find? fun k => s.paramBad k with
  | some k => s.complete .parity [byteOf k]
  | none => body s

/-- The command with this code, whose parameter block is words 1 to `words`. -/
def State.runCommand (s : State) (code : Word) (words : Nat) (body : State → State) : State :=
  s.onCommand (fun t => decide (t.mbox.code = code)) fun t => t.checkWords words body

/-- Command codes (R152). -/
def codeSETW : Word := 0xA101
/-- R152. -/
def codeENBW : Word := 0xA102
/-- R152. -/
def codeDISW : Word := 0xA103
/-- R152. -/
def codeDELW : Word := 0xA104
/-- R152. -/
def codeQRYW : Word := 0xA105
/-- R152. -/
def codePUSH : Word := 0xA106
/-- R152. -/
def codePEEK : Word := 0xA107
/-- R152. -/
def codeSETID : Word := 0xA201
/-- R152. -/
def codeJOIN : Word := 0xA202
/-- R152. -/
def codeLEAVE : Word := 0xA203
/-- R152. -/
def codeHOLD : Word := 0xA204
/-- R152. -/
def codeRESUME : Word := 0xA205
/-- R152. -/
def codeNBRS : Word := 0xA206
/-- R152. -/
def codeCNTR : Word := 0xA301
/-- R152. -/
def codeALRT : Word := 0xA302
/-- R152. -/
def codePSAV : Word := 0xA401
/-- R152. -/
def codePLOD : Word := 0xA402
/-- R152. -/
def codeTEST : Word := 0xA501
/-- R152. -/
def codeRSET : Word := 0xA5FF

/-- The codes that name a command (R152). -/
def commandCodes : List Word :=
  [codeSETW, codeENBW, codeDISW, codeDELW, codeQRYW, codePUSH, codePEEK, codeSETID, codeJOIN, codeLEAVE, codeHOLD,
    codeRESUME, codeNBRS, codeCNTR, codeALRT, codePSAV, codePLOD, codeTEST, codeRSET]

end Sys2Proof.Machine
end

