-- ==== Sys2Proof/Machine/Events.lean ====
section
/-! DEFINITION. The timer events: what each block's share of a cycle-start or slot-start event does, how the shares
are taken, and the rows of the table that a timer event brings (spec/06 section 6.1; notes/assumptions/1.md, 7.md). -/

namespace Sys2Proof.Machine

/-! ### Shares of a cycle-start event -/

/-- A two-stage command of the mailbox completes with the local cycle number of its event (R154). -/
def State.completeAtCycle (s : State) (work : Work) (cycle : Word) : State :=
  if s.mbox.work = work then s.complete .ok (busWord cycle) else s

/-- One place at the cycle-start event of this number: a PENDING window goes LIVE, a CLOSING one is purged, and the
command that waits for it completes (R31, R33, R154). -/
def State.placeTurn (cycle : Word) (s : State) (n : WinNo) : State :=
  match s.win n with
  | some w =>
    match w.state with
    | .pending => (s.goLive n).completeAtCycle (.enbw n) cycle
    | .closing => (s.purge n).completeAtCycle (.disw n) cycle
    | .idle | .live => s
  | none => s

/-- The places that waited when the cycle-start event of this number came (R35). -/
def State.windowsTurn (s : State) (waiting : List WinNo) (cycle : Word) : State :=
  waiting.foldl (State.placeTurn cycle) s

/-- An entry at a cycle-start event: its heard flag is cleared unless it belongs to the cycle that begins, its bar goes
down (R115). -/
def Neighbour.nextCycle (e : Neighbour) : Neighbour :=
  { e with heard := e.heard && e.late, late := false, bar := e.bar - 1 }

/-- A kept beacon at a cycle-start event: emptied unless it belongs to the cycle that begins (R112). -/
def Kept.nextCycle (k : Kept) : Option Kept := if k.late then some { k with late := false } else none

/-- LEAVE is no longer pending and its command completes (R130). -/
def State.leaveDone (s : State) : State :=
  let s1 : State := { s with link := { s.link with leave := false } }
  if s1.mbox.work = .leave then s1.complete .ok [] else s1

/-- A pending LEAVE takes effect (R130). -/
def State.leaveNow (s : State) : State :=
  if s.link.leave then
    match s.link.state with
    | .off => s.leaveDone
    | .served | .handoff => (s.watchReference ((s.raise .linkLost).revert.enterOff)).leaveDone
    | .starting | .search | .joining => (s.watchReference (s.revert.enterOff)).leaveDone
  else s

/-- Heard flags, bars, kept beacons, the grant list and the count of frames at a cycle-start event (R112, R115, R124,
R134). -/
def State.turnLink (s : State) : State :=
  { s with
    link := { s.link with
      table := s.link.table.map Neighbour.nextCycle, grants := []
      keptServing := s.link.keptServing.bind Kept.nextCycle
      keptTarget := s.link.keptTarget.bind Kept.nextCycle }
    fe := { s.fe with
      sentInCycle := 0
      rx := s.fe.rx.map fun (r : Reception) => { r with wrapped := true } } }

/-- The cycle-start event in the Link Controller and the Frame Engine (R112, R115, R124, R130, R134). -/
def State.linkTurn (s : State) : State := s.turnLink.leaveNow

/-- The windows' share of a cycle-start event in progress names this window. -/
def Duty.waitsFor (n : WinNo) : Duty → Bool
  | .windows waiting _ => waiting.contains n
  | _ => false

/-- Windows whose purge belongs to the event in progress: their entries are not aged (R35). -/
def State.purgeDue (s : State) (n : WinNo) : Bool :=
  s.due.any (Duty.waitsFor n) &&
    match s.win n with
    | some w => decide (w.state = .closing)
    | none => false

/-- The journal's share (R61, R68). -/
def State.journalTurn (s : State) : State := s.ageJournal s.purgeDue

/-- The next ageing removes an entry (R68). -/
def State.agesOutNext (s : State) : Bool :=
  s.journal.entries.any fun e => !s.purgeDue e.win && e.older.agesOut

/-- The refresh period of a PUBLISH window, 0 when it has none (R54). -/
def Window.period (w : Window) : Nat :=
  match w.defn.body with
  | .publish p => p.refresh
  | _ => 0

/-- Set a window's refresh countdown. -/
def Window.setCountdown (w : Window) (k : Nat) : Window := { w with pub := { w.pub with countdown := k } }

/-- One window's refresh countdown (R54). -/
def State.refreshTurn (s : State) (n : WinNo) : State :=
  match s.liveWin n with
  | some w =>
    if w.isPublish ∧ 0 < w.pub.countdown then
      if w.pub.countdown = 1 then (s.setPlace n (some (w.setCountdown w.period))).changeAll n w.sendable
      else s.setPlace n (some (w.setCountdown (w.pub.countdown - 1)))
    else s
  | none => s

/-- The next cycle-start event refreshes the window (R54). -/
def State.refreshesNext (s : State) (n : WinNo) : Bool :=
  match s.liveWin n with
  | some w => w.isPublish && decide (w.pub.countdown = 1)
  | none => false

/-- The served-cycle count after a cycle-start event (R166). -/
def State.servedNext (s : State) : Nat :=
  match s.link.state with
  | .served | .handoff => min 64 (s.status.served + 1)
  | .off | .starting | .search | .joining => 0

/-- The event leaves the count at 64 while the auto-clear flag is set (R166). -/
def State.autoClearsNext (s : State) : Bool := s.status.autoClear && decide (s.servedNext = 64)

/-- The served-cycle count and the LINK_LOST auto-clear (R166). -/
def State.servedTurn (s : State) : State :=
  { s with status := { s.status with
      served := s.servedNext
      pending := if s.autoClearsNext then s.status.pending &&& ~~~Alert.linkLost.mask else s.status.pending } }

/-! ### Shares of a slot-start event -/

/-- The next slot-start event is the eighth in STARTING (R118). -/
def State.timesOutNext (s : State) : Bool :=
  decide (s.link.state = .starting) && decide (8 ≤ s.link.startCount + 1)

/-- The STARTING count of a slot-start event, and the timeout at 8 (R118). -/
def State.startingTurn (s : State) : State :=
  if s.timesOutNext then
    let s1 := s.enterOff.raise .radioFault
    if s1.mbox.work = .join then s1.complete .radioFault [] else s1
  else if s.link.state = .starting then { s with link := { s.link with startCount := s.link.startCount + 1 } }
  else s

/-! ### Taking the shares -/

/-- One block's share of the timer event in progress. -/
def State.perform (s : State) : Duty → State
  | .windows waiting cycle => s.windowsTurn waiting cycle
  | .linkCycle => s.linkTurn
  | .journalAge => s.journalTurn
  | .refresh n => s.refreshTurn n
  | .overlayAge n => s.ageWindow n
  | .stagingAge g => s.ageStaging g
  | .served => s.servedTurn
  | .miss phase node => s.missNode phase node
  | .starting => s.startingTurn
  | .phaseEnd => s.phaseEnd
  | .lost => s.loseLate
  | .holdover => s.holdoverTest
  | .slot k => s.beginSlot k

/-- The shares that are due are taken, in order. -/
def State.settle (s : State) : State := s.due.foldl State.perform { s with due := [] }

/-- The shares due that meet `p` are taken, in order, and the others stay due. -/
def State.settleOnly (s : State) (p : Duty → Bool) : State :=
  (s.due.filter p).foldl State.perform { s with due := s.due.filter fun d => !p d }

/-- The shares of the cycle-start event that are due are taken, in order. -/
def State.settleCycle (s : State) : State := s.settleOnly Duty.ofCycle

/-- The misses that are due are taken, in order. -/
def State.settleMisses (s : State) : State := s.settleOnly Duty.isMiss

/-- One REFCLK tick, with the events it brings. Φ is held while the part is in reset (R91). -/
def State.tick (s : State) : State :=
  (if s.held then s else (s.settle.advance 1).settle).arbitrate

/-! ### Beacons and the phase (R95 to R97) -/

/-- A phase step with the events it produces: their shares, behind those still due, are taken in the step (R97, R100). -/
def State.stepAndSettle (s : State) (k : Int) : State :=
  let s1 := s.stepPhase k
  if s1.due = s.due then s1 else s1.settle

/-- A fine correction: the reference-taken flag, the step with its events, then the trim (R96, R97). -/
def State.fineCorrect (s : State) (e : Int) (cycle : Word) : State :=
  ((s.setTimer { s.timer with taken := true }).stepAndSettle (fineStep s.params.kp e)).finishCorrect e cycle

/-- A beacon of the reference node with error `e` (R95). -/
def State.referenceBeacon (s : State) (e : Int) (expected : BitVec 40) (cycle : Word) : State :=
  if largeErr e then s.largeError expected cycle else s.fineCorrect e cycle

/-- What the Cycle Timer does with a beacon handed to it (R95). -/
def State.timeBeacon (s : State) (node phase : Nat) (cycle : Word) (phiA : BitVec 40) : State :=
  let expected := expectedPhase s.params.lam phase
  if s.reference = some node then s.referenceBeacon (errorTicks expected phiA) expected cycle
  else s.coarseAlign expected cycle

/-- `n` REFCLK ticks. -/
def ticks : Nat → State → State
  | 0, s => s
  | n + 1, s => ticks n s.tick

/-! ### The events as rows of the table -/

/-- A share of a slot-start event is due. -/
def State.slotDue (s : State) : Bool := s.due.any Duty.ofSlot

/-- A share of a cycle-start event is due. -/
def State.cycleDue (s : State) : Bool := s.due.any Duty.ofCycle

/-- The ticks up to the next slot-start event pass. After a backward step the first boundary may enter slot L again and
give no event; then the next one gives it (R92, R100). -/
def State.toSlotStart (s : State) : State :=
  let s1 := s.toBoundary
  if s1.slotDue then s1 else s1.settle.toBoundary

/-- The slot-start event in progress, or else the next one, begun. The one that begins slot 0 follows the cycle-start
event, whose shares still due come first (R93). -/
def State.inSlot (s : State) : Option State :=
  if s.held then none
  else if s.slotDue then some s.settleCycle
  else if s.due = [] then some s.toSlotStart.settleCycle
  else none

/-- The slot-start event in progress, or else the next one, with the misses of the slot that ended taken: whatever the
beacon-phase end decides, it decides after them (R114). -/
def State.inPhaseEnd (s : State) : Option State := s.inSlot.map State.settleMisses

/-- The next slot boundary is the wrap. -/
def State.wrapNext (s : State) : Bool :=
  !s.held && decide (s.due = []) && decide (slotOf s.timer.phi = 63)

/-- The cycle-start event in progress, or else the one that the wrap brings, begun. -/
def State.inCycle (s : State) : Option State :=
  if s.held then none
  else if s.cycleDue then some s
  else if s.wrapNext && !s.timer.suppress then some s.toBoundary
  else none

/-- A share of the event `start` is taken before the others, when it is due and its own condition holds; else the event
named by the row does not come, and nothing changes. -/
def State.takeShare (s : State) (start : Option State) (d : Duty) (holds : State → Bool) : State :=
  match start with
  | some t => if t.due.contains d && holds t then ({ t with due := t.due.erase d } : State).perform d else s
  | none => s

/-- SLOT_START (R92, R114, R117, R118, R125, R134, R143). -/
def execSlotStart (s : State) : Host.Outcome State Fault Refusal :=
  done (
    if s.held then s
    else if s.slotDue then s.settle
    else s.settle.toSlotStart.settle)

/-- CYCLE_START (R93). -/
def execCycleStart (s : State) : Host.Outcome State Fault Refusal :=
  done (match s.inCycle with
    | some t => t.settleCycle
    | none => s)

/-- SUPPRESSED_WRAP (R93): the flag is cleared, no cycle-start event comes; slot 0 starts or not by R92. -/
def execSuppressedWrap (s : State) : Host.Outcome State Fault Refusal :=
  done (if s.wrapNext && s.timer.suppress then s.toBoundary else s)

/-- REFRESH (R54). -/
def execRefresh (n : WinNo) (s : State) : Host.Outcome State Fault Refusal :=
  done (s.takeShare s.inCycle (.refresh n) fun t => t.refreshesNext n)

/-- AGE_OUT (R68). -/
def execAgeOut (s : State) : Host.Outcome State Fault Refusal :=
  done (s.takeShare s.inCycle .journalAge State.agesOutNext)

/-- A test of the window in a place. -/
def State.winTest (s : State) (n : WinNo) (p : Window → Bool) : Bool :=
  match s.win n with
  | some w => p w
  | none => false

/-- WINDOW_EXPIRY (R86). -/
def execWindowExpiry (n : WinNo) (s : State) : Host.Outcome State Fault Refusal :=
  done (s.takeShare s.inCycle (.overlayAge n) fun t => t.winTest n Window.expiresNext)

/-- REFILL_EXPIRY (R87). -/
def execRefillExpiry (n : WinNo) (s : State) : Host.Outcome State Fault Refusal :=
  done (s.takeShare s.inCycle (.overlayAge n) fun t => t.winTest n Window.refillEndsNext)

/-- STAGING_LIMIT (R83). -/
def execStagingLimit (g : GroupNo) (s : State) : Host.Outcome State Fault Refusal :=
  done (s.takeShare s.inCycle (.stagingAge g) fun t => t.groups[g].limitNext)

/-- AUTO_CLEAR (R166). -/
def execAutoClear (s : State) : Host.Outcome State Fault Refusal :=
  done (s.takeShare s.inCycle .served State.autoClearsNext)

/-- The share that is due for the miss of a node. -/
def State.missDue (s : State) (node : Nat) : Option (Nat × Nat) :=
  (s.due.filterMap fun d => match d with
    | .miss phase m => if m = node then some (phase, m) else none
    | _ => none).head?

/-- NEIGHBOUR_DROP (R114). -/
def execNeighbourDrop (node : Nat) (s : State) : Host.Outcome State Fault Refusal :=
  done (match s.inSlot with
    | some t =>
      match t.missDue node with
      | some (phase, m) => s.takeShare (some t) (.miss phase m) fun t => t.dropsAt phase m
      | none => s
    | none => s)

/-- HOLDOVER_EXPIRY (R102), the misses of slot 7 before it (R114). -/
def execHoldoverExpiry (s : State) : Host.Outcome State Fault Refusal :=
  done (s.takeShare s.inPhaseEnd .holdover State.holdoverEnds)

/-- The target has neither accepted nor refused, and its request is at its second beacon-phase end (R123, R129). -/
def State.unanswered (s : State) : Bool :=
  (decide (s.link.state = .joining) || decide (s.link.state = .handoff))
    && !s.accepted && !s.refused && s.link.join.unansweredNow

/-- JOIN_UNANSWERED (R123, R129), the misses of slot 7 before it (R114). -/
def execJoinUnanswered (s : State) : Host.Outcome State Fault Refusal :=
  done (s.takeShare s.inPhaseEnd .phaseEnd State.unanswered)

/-- The wait of a request neither due nor sent has reached 0 (R123). -/
def State.waitOver (s : State) : Bool :=
  decide (s.link.state = .joining) && !s.accepted && !s.refused
    && s.link.join.due.isNone && !s.link.join.sent && decide (s.link.join.wait = 0)

/-- JOIN_WAIT_EXPIRY (R123), the misses of slot 7 before it (R114). -/
def execJoinWaitExpiry (s : State) : Host.Outcome State Fault Refusal :=
  done (s.takeShare s.inPhaseEnd .phaseEnd State.waitOver)

/-- FRAME_LOST (R139): the first record past its deadline; the others are left to the rest of the event. -/
def execFrameLost (s : State) : Host.Outcome State Fault Refusal :=
  done (match s.inSlot with
    | some t =>
      if t.due.contains .lost then
        match t.fe.sent.find? (SentFrame.late t.timer.cycle) with
        | some f => t.loseRecord f
        | none => s
      else s
    | none => s)

/-- STARTING_TIMEOUT (R118). -/
def execStartingTimeout (s : State) : Host.Outcome State Fault Refusal :=
  done (s.takeShare s.inSlot .starting State.timesOutNext)

end Sys2Proof.Machine
end

