-- ==== Sys2Proof/Machine/Status.lean ====
section
/-! DEFINITION. The status record (spec/10 section 10.1, spec/12 R177) and the reports of QRYW, NBRS, CNTR and PEEK as
bytes (R155, R156, R158, R176). -/

namespace Sys2Proof.Machine

/-! ### The status record -/

/-- The profile state's code: IMAGE_FAULT while the pool is unusable, else the store condition (R169, R177). -/
def State.profileCode (s : State) : Nat :=
  if s.pool.usable then
    match s.status.store with
    | .valid => 1
    | .absent => 2
    | .invalid => 3
  else 4

/-- A counter's value. -/
def State.counter (s : State) (c : Counter) : BitVec 32 := s.status.counters[c.index]

/-- The low 16 bits of a counter. -/
def State.counterWord (s : State) (c : Counter) : Word := (s.counter c).extractLsb' 0 16

/-- An alert set as a word (R175). -/
def setWord (a : AlertSet) : Word := a.setWidth 16

/-- A number held in two's complement in one byte (R177). -/
def signedByte (t : Int) : Byte := BitVec.ofInt 8 t

/-- The words of the status record, from offset 0 (R162, R177). -/
def State.statusRecord (s : State) : List Word :=
  let pair (low high : Nat) : Word := joinBytes (byteOf high) (byteOf low)
  let node (e : Option Neighbour) : Nat := (e.map Neighbour.node).getD 0
  let score (e : Option Neighbour) : Nat := (e.map Neighbour.score).getD 0
  let live (p : Window → Bool) : Nat := (s.placesWhere fun w => decide (w.state = .live) && p w).length
  [ pair 1 s.link.state.code
    , pair s.timer.timing.code s.profileCode
    , pair (node s.serving) (score s.serving)
    , pair (node s.target) 0
    , pair ((s.link.best.map Prod.fst).getD 0) ((s.link.best.map Prod.snd).getD 0)
    , s.timer.cycle
    , pair s.link.car (if s.journal.hold then 1 else 0)
    , joinBytes 0 (signedByte s.timer.trim)
    , pair s.journal.entries.length s.tap.fifo.length
    , pair s.tap.peak (live fun _ => true)
    , pair (live fun w => w.sub?.isSome && decide (w.ov.state = .expired))
        (live fun w => w.isPublish && w.pub.known.any (fun b => !b))
    , s.counterWord .sent, s.counterWord .acked, s.counterWord .applied ]
  ++ List.replicate 10 0
  ++ [setWord s.status.pending, setWord s.status.record, setWord s.status.signal]
  ++ List.replicate 5 0

/-- The status record word at a word-aligned offset (R9, R162). -/
def State.statusWord (s : State) (offset : Nat) : Word := s.statusRecord.getD (offset / 2) 0

/-! ### The response block -/

/-- The bytes of the response block, offsets 0x80 to 0xFF of window 0 (R174, R180). -/
def Response.bytes (r : Response) : List Byte :=
  let head := [byteOf r.result.code, byteOf ((if r.overrun then 1 else 0) + if r.lostWrite then 2 else 0)]
    ++ busWord r.echo ++ busWord r.prevCommand ++ [byteOf r.prevResult.code, 0]
    ++ busWord (BitVec.ofNat 16 r.data.length) ++ [0, 0] ++ r.data
  head ++ List.replicate (128 - head.length) 0

/-! ### QRYW -/

/-- A count as a word on the bus. -/
def countWord (n : Nat) : List Byte := busWord (BitVec.ofNat 16 n)

/-- An entry as QRYW reports it (R176). -/
def Entry.report (e : Entry) : List Byte :=
  [byteOf e.first, byteOf e.last, if e.isWaiting then 0 else 1, byteOf e.attempts, byteOf e.age]

/-- Shadow granules with at least one byte not known (R155). -/
def Window.unknownGranules (w : Window) : Nat :=
  ((List.range w.granules).filter fun g => !w.shadowKnown g).length

/-- The refresh countdown as reported: 0 when the window has none (R176). -/
def Window.countdownShown (w : Window) : Nat :=
  match w.state with
  | .idle | .pending => 0
  | .live | .closing => if w.period = 0 then 0 else w.pub.countdown

/-- The PUBLISH report from byte 2 (R155, R176). -/
def State.publishReport (s : State) (n : WinNo) (w : Window) : List Byte :=
  let es := s.journal.entries.filter fun e => decide (e.win = n)
  ([GranState.idle, .wanted, .waiting, .inFlight, .inFlightAgain].flatMap fun x =>
      countWord (w.pub.states.count x))
    ++ countWord w.unknownGranules ++ busWord w.pub.revision
    ++ [flagByte w.pub.backlog, byteOf w.countdownShown, byteOf es.length, 0]
    ++ (es.take 16).flatMap Entry.report

/-- The SUBSCRIBE report from byte 2 (R155, R176). -/
def State.subscribeReport (s : State) (w : Window) : List Byte :=
  let rev := revisionBytes (if w.group.val = 0 then w.ov.revision else s.groups[w.group].revision)
  let staging := revisionBytes s.groups[w.group].staging
  [byteOf w.ov.state.code, rev.1] ++ rev.2 ++ [byteOf w.ov.age, 0] ++ countWord (countSet w.ov.present)
    ++ if w.group.val = 0 then []
       else countWord (countSet w.ov.staged) ++ [staging.1, 0] ++ staging.2

/-- The data QRYW reports for a place (R155, R176). -/
def State.placeReport (s : State) (n : WinNo) : List Byte :=
  match s.win n with
  | none => [0]
  | some w =>
    [byteOf w.state.code, byteOf w.defn.body.code]
      ++ match w.defn.body with
         | .publish _ => s.publishReport n w
         | .subscribe _ => s.subscribeReport w
         | .status => []

/-! ### NBRS and CNTR -/

/-- Insert an entry by ascending node number. -/
def insertByNode (e : Neighbour) : List Neighbour → List Neighbour
  | [] => [e]
  | x :: xs => if e.node ≤ x.node then e :: x :: xs else x :: insertByNode e xs

/-- A neighbour as NBRS reports it (R176). -/
def Neighbour.report (e : Neighbour) : List Byte :=
  [byteOf e.node, byteOf e.phase, byteOf e.score, byteOf e.misses,
    byteOf ((if e.heard then 1 else 0) + (if e.accepting then 2 else 0) + if e.closing then 4 else 0),
    byteOf e.sample, byteOf e.role.code, byteOf e.bar]

/-- The data NBRS reports (R155, R176). -/
def State.neighbourReport (s : State) : List Byte :=
  byteOf s.link.table.length :: (s.link.table.foldr insertByNode []).flatMap Neighbour.report

/-- The data CNTR reports (R158, R176). -/
def State.counterReport (s : State) : List Byte :=
  s.status.counters.toList.flatMap busLong ++ [byteOf s.tap.peak, 0]

/-! ### PEEK -/

/-- The granule map of an image of a window by PEEK's code, when the window holds that image (R156, R175). -/
def Window.image (w : Window) (code : Nat) : Option (List Nat) :=
  match w.defn.body, code with
  | .publish _, 0 => some w.mapA
  | .publish { mode := .onTrigger _, .. }, 1 => some w.mapB
  | .subscribe _, 2 => some w.activeMap
  | .subscribe d, 3 => if d.group.val = 0 then none else some w.stagingMap
  | _, _ => none

/-- The flags of granule `g` of an image by PEEK's code: the known flags of its bytes for a shadow, else its filled,
present or staged flag (R156). -/
def Window.imageFlags (w : Window) (code g : Nat) : List Bool :=
  match code with
  | 0 => (List.range 16).map fun i => w.byteKnown (16 * g + i)
  | 1 => [w.pub.filled.getD g false]
  | 2 => [w.ov.present.getD g false]
  | _ => [w.ov.staged.getD g false]

/-- Up to eight flags as the bits of a byte, the first as bit 0. -/
def bitsByte (l : List Bool) : Byte := byteOf ((l.take 8).foldr (fun b n => (if b then 1 else 0) + 2 * n) 0)

/-- The flag bytes of a PEEK response (R176). -/
def peekFlags (code : Nat) (flags : List Bool) : List Byte :=
  if code = 0 then (List.range (flags.length / 8)).map fun j => bitsByte (flags.drop (8 * j)) else [bitsByte flags]

end Sys2Proof.Machine
end

