-- ==== Sys2Proof/Machine/Profile.lean ====
section
/-! DEFINITION. The stored profile (spec/11 sections 11.1 and 11.2, spec/12 R181): its layout, how the store is judged,
what PSAV writes, and how a profile's definitions are installed (R25). -/

namespace Sys2Proof.Machine

/-! ### Parameters and their ranges -/

/-- The ranges of the car number and of F, S, W, P, D, U, Hm, K, Ls, HL, Kp, Ki and λ, in the order of SETID's words
(R103, R110, R157, R175). -/
def paramRanges : List (Nat × Nat) :=
  [(0, 127), (0, 200), (1, 8), (1, 16), (0, 255), (1, 15), (0, 255), (0, 255), (1, 8), (1, 15), (1, 255),
    (0, 16), (0, 16), (0, 1023)]

/-- The word of the first value outside its range, counted from 1 (R157). -/
def firstOutside (values : List Nat) : Option Nat :=
  ((paramRanges.zip values).findIdx? fun p => !(decide (p.1.1 ≤ p.2) && decide (p.2 ≤ p.1.2))).map (· + 1)

/-- The parameters in the order of SETID's words 2 to 14. -/
def Params.ofList (v : List Nat) : Params :=
  let g (i : Nat) := v.getD i 0
  { f := g 0, s := g 1, w := g 2, p := g 3, d := g 4, u := g 5, hm := g 6, k := g 7, ls := g 8, hl := g 9,
    kp := g 10, ki := g 11, lam := g 12 }

/-- The twelve parameters that take one byte each, in the profile's order (R181). -/
def Params.short (p : Params) : List Nat :=
  [p.f, p.s, p.w, p.p, p.d, p.u, p.hm, p.k, p.ls, p.hl, p.kp, p.ki]

/-- Identity and parameters are set in one step and the shift register reseeded (R121, R157, R171). -/
def State.setIdentity (s : State) (car : Nat) (p : Params) : State :=
  { s with params := p, link := { s.link with car := car, lfsr := lfsrSeed car } }

/-! ### Reading the store -/

/-- A profile's contents as read (R169). -/
structure Profile where
  car : Nat
  params : Params
  record : AlertSet
  signal : AlertSet
  autoClear : Bool
  autoJoin : Bool
  defns : List RawDefn
deriving DecidableEq, Repr

/-- A number in `n` bytes, most significant first. -/
def bigEndian (b : List Byte) : Nat := b.foldl (fun n x => 256 * n + x.toNat) 0

/-- The number in `n` bytes of a list from position `i`. -/
def fieldAt (b : List Byte) (i n : Nat) : Nat := bigEndian ((b.drop i).take n)

/-- The stored definition whose 24 bytes start at `i` (R181). -/
def storedDefn (b : List Byte) (i : Nat) : RawDefn :=
  { number := fieldAt b i 1, kind := fieldAt b (i + 1) 1, base := fieldAt b (i + 2) 3
    length := fieldAt b (i + 5) 2, topic := fieldAt b (i + 7) 2, cls := fieldAt b (i + 9) 1
    mode := fieldAt b (i + 10) 1, trigger := fieldAt b (i + 11) 2, refresh := fieldAt b (i + 13) 1
    hold := fieldAt b (i + 14) 1, action := fieldAt b (i + 15) 1, fallback := fieldAt b (i + 16) 2
    release := fieldAt b (i + 18) 1, group := fieldAt b (i + 19) 1, start := fieldAt b (i + 20) 1 }

/-- The values of a stored profile in the order of SETID's words (R181). -/
def storedValues (b : List Byte) : List Nat := (List.range 13).map (fun i => fieldAt b (3 + i) 1) ++ [fieldAt b 16 2]

/-- The definitions of a stored profile. -/
def storedDefns (b : List Byte) : List RawDefn :=
  (List.range (fieldAt b 24 1)).map fun k => storedDefn b (25 + 24 * k)

/-- Window numbers are 1 to 31 and none is named twice (R169). -/
def numbersOk (l : List RawDefn) : Bool :=
  l.all (fun r => decide (1 ≤ r.number) && decide (r.number ≤ 31)) && decide (l.map RawDefn.number).Nodup

/-- The CRC of a profile of `count` definitions matches (R132, R181). -/
def profileCrcOk (b : List Byte) (count : Nat) : Bool :=
  decide (crc16 (b.take (25 + 24 * count)) = airWordAt b (25 + 24 * count))

/-- The conditions of R169 on a store of format 1. -/
def profileOk (b : List Byte) : Bool :=
  let count := fieldAt b 24 1
  decide (fieldAt b 0 1 = 1) && decide (count ≤ 31) && decide (fieldAt b 1 2 = 27 + 24 * count)
    && profileCrcOk b count && decide (fieldAt b 18 2 < 4096) && decide (fieldAt b 20 2 < 4096)
    && decide (fieldAt b 22 1 ≤ 1) && decide (fieldAt b 23 1 ≤ 1)
    && (firstOutside (storedValues b)).isNone && numbersOk (storedDefns b)

/-- The contents of a valid profile (R169, R181). -/
def profileOf (b : List Byte) : Profile :=
  { car := fieldAt b 3 1, params := Params.ofList ((storedValues b).drop 1)
    record := BitVec.ofNat 12 (fieldAt b 18 2), signal := BitVec.ofNat 12 (fieldAt b 20 2)
    autoClear := decide (fieldAt b 22 1 = 1), autoJoin := decide (fieldAt b 23 1 = 1), defns := storedDefns b }

/-- The longest profile: 31 definitions (R181). -/
def profileRoom : Nat := 771

/-- How the bytes of a store are judged (R169). -/
def judgeBytes (b : List Byte) : StoreCondition :=
  if fieldAt b 0 1 = 0xFF then .absent else if profileOk b then .valid else .invalid

/-- The bytes of the store that a profile can take. -/
def Store.bytes : Store → List Byte
  | .holds m => Memory.readN Config.storeDefault m 0 profileRoom
  | .torn => []

/-- How the store is judged; a torn store is judged ABSENT or INVALID by a free value (R170; notes/assumptions/8.md). -/
def State.judgeStore (s : State) : StoreCondition :=
  match s.store with
  | .holds _ => judgeBytes s.store.bytes
  | .torn => if Config.tornReadsErased s.freeCount then .absent else .invalid

/-- The stored profile, if the store is judged VALID. -/
def State.storedProfile (s : State) : Option Profile :=
  if s.judgeStore = .valid then some (profileOf s.store.bytes) else none

/-! ### Installing a profile -/

/-- Insert a definition by window number. -/
def insertByNumber (r : RawDefn) : List RawDefn → List RawDefn
  | [] => [r]
  | x :: xs => if r.number ≤ x.number then r :: x :: xs else x :: insertByNumber r xs

/-- One definition of a profile is tested and installed, or refused (R25). -/
def State.installOne (s : State) (r : RawDefn) : State :=
  match s.checkDefn r with
  | .ok (n, d) => s.install n d
  | .error _ => s

/-- The profile's definitions are installed one at a time in order of window number; all places are FREE (R25). -/
def State.installAll (s : State) (l : List RawDefn) : State :=
  (l.foldr insertByNumber []).foldl State.installOne s

/-- A profile's settings: identity, parameters, enable sets and flags (R171, R172). -/
def State.applyProfile (s : State) (p : Profile) : State :=
  let s1 := s.setIdentity p.car p.params
  { s1 with
    link := { s1.link with autoJoin := p.autoJoin }
    status := { s1.status with record := p.record, signal := p.signal, autoClear := p.autoClear } }

/-- The defaults of an ABSENT or INVALID profile (R172). -/
def Profile.default : Profile :=
  { car := 0, params := Params.default, record := BitVec.allOnes 12, signal := 0, autoClear := false,
    autoJoin := false, defns := [] }

/-- The places 1 to 31 that are not FREE, ascending. -/
def State.definedPlaces (s : State) : List WinNo := s.placesWhere fun _ => true

/-! ### Writing the store -/

/-- A number as `n` bytes, most significant first. -/
def toBytes : Nat → Nat → List Byte
  | 0, _ => []
  | n + 1, v => byteOf (v / 256 ^ n) :: toBytes n v

/-- Known bytes. -/
def fixed (n v : Nat) : List (Option Byte) := (toBytes n v).map some

/-- `n` bytes that nothing fixes: spare bytes and fields not held (R22, R181; notes/assumptions/8.md). -/
def unfixed (n : Nat) : List (Option Byte) := List.replicate n none

/-- The kind's fields from byte 7 of a stored definition to byte 19 (R22, R181). -/
def DefBody.stored : DefBody → List (Option Byte)
  | .publish p =>
    fixed 2 p.topic ++ fixed 1 p.cls
      ++ (match p.mode with
          | .onWrite => fixed 1 0 ++ unfixed 2
          | .onTrigger t => fixed 1 1 ++ fixed 2 t)
      ++ fixed 1 p.refresh ++ unfixed 6
  | .subscribe d =>
    fixed 2 d.topic ++ unfixed 5 ++ fixed 1 d.hold
      ++ (match d.action with
          | .hold => fixed 1 0 ++ unfixed 2
          | .fallback w => fixed 1 1 ++ fixed 2 w.toNat
          | .release => fixed 1 2 ++ unfixed 2)
      ++ fixed 1 (if d.releaseOnWrite then 1 else 0) ++ fixed 1 d.group.val
  | .status => unfixed 13

/-- A definition as stored: 24 bytes (R181). -/
def Definition.stored (n : WinNo) (d : Definition) : List (Option Byte) :=
  fixed 1 n.val ++ fixed 1 d.body.code ++ fixed 3 d.base ++ fixed 2 d.length ++ d.body.stored
    ++ fixed 1 (if d.startEnabled then 1 else 0) ++ unfixed 3

/-- The definitions PSAV stores, with their count (R170). -/
def State.storedPlaces (s : State) : List (Option Byte) :=
  s.definedPlaces.flatMap fun n => match s.win n with
    | some w => w.defn.stored n
    | none => []

/-- The bytes before the definitions (R181). -/
def State.profileHead (s : State) : List (Option Byte) :=
  let count := s.definedPlaces.length
  fixed 1 1 ++ fixed 2 (27 + 24 * count) ++ fixed 1 s.link.car ++ s.params.short.flatMap (fixed 1)
    ++ fixed 2 s.params.lam ++ fixed 2 s.status.record.toNat ++ fixed 2 s.status.signal.toNat
    ++ fixed 1 (if s.status.autoClear then 1 else 0) ++ fixed 1 (if s.link.autoJoin then 1 else 0) ++ fixed 1 count

/-- The bytes nothing fixes take free values, counted from `k`. -/
def fillFree (k : Nat) (l : List (Option Byte)) : List Byte := l.mapIdx fun i b => b.getD (Config.freeByte (k + i))

/-- The profile that PSAV takes, CRC included (R170, R181). -/
def State.profileBytes (s : State) : List Byte :=
  let body := fillFree s.freeCount (s.profileHead ++ s.storedPlaces)
  body ++ airWord (crc16 body)

/-- A store that holds these bytes from its start and erased bytes beyond them. -/
def Store.ofBytes (b : List Byte) : Store := .holds (Memory.writeAll Config.storeDefault [] 0 b)

/-- The store after the write of a profile is cut short: as it was when it was not yet erased, whole when only the read-back
was missing, else erased and not completely written; a free value says which (R170; notes/assumptions/8.md). -/
def State.cutStore (s : State) (profile : List Byte) : Store :=
  match Config.writeReached s.freeCount with
  | 0 => s.store
  | 1 => .torn
  | 2 => Store.ofBytes profile

/-- The write of a profile is cut short, and its free value drawn (R170). -/
def State.cutWrite (s : State) (profile : List Byte) : State :=
  { s with store := s.cutStore profile, freeCount := s.freeCount + 1 }

end Sys2Proof.Machine
end

