-- ==== Sys2Proof/Machine/StartUp.lean ====
section
/-! DEFINITION. Resets, BYPASS# and start-up (00 "Resets", R20, R36, R172, R173): POWER_ON, RESET_ASSERT, BYPASS_ASSERT,
BYPASS_RELEASE, RESET_RELEASE, POOL_TEST_END, END_OF_START_UP. -/

namespace Sys2Proof.Machine

/-! ### The start of a reset -/

/-- Replace reset control. -/
def State.setRst (s : State) (r : ResetUnit) : State := { s with rst := r }

/-- A reset ends a write of the store in progress (R170). -/
def State.stopWrite (s : State) : State :=
  match s.mbox.work with
  | .psav profile => s.cutWrite profile
  | _ => s

/-- The start of a reset kind: every block takes its reset state, and every granule is free (R20, R36, R38, R72, R90,
R108, R131, R144, R145, R168, R170). -/
def State.beginReset (s : State) (kind : ResetKind) : State :=
  let s1 := s.stopWrite.freeAll
  { s1 with
    rst := { s1.rst with kind := kind }
    tap := Tap.reset
    arbiter := .mailbox
    port := none
    journal := Journal.reset
    groups := Vector.replicate 8 Group.reset
    timer := Timer.reset
    params := Params.default
    link := Link.reset
    fe := FrameEngine.reset
    mbox := Mailbox.reset
    status := Status.reset
    due := [] }

/-- A pool taken as usable, with every granule on its free list (R26, R29). -/
def State.newPool (s : State) : State :=
  { s with pool := { s.pool with free := List.range Config.poolGranules, usable := true } }

/-- The supply comes up: the power-on reset begins, the pool is taken as usable until its test (R29, R36). -/
def State.powerUp (s : State) : State :=
  let s1 := s.beginReset .powerOn
  (s1.setRst { s1.rst with supply := true, phase := .poolTest, testOwed := true }).newPool

/-- POWER_ON (R20). -/
def execPowerOn (s : State) : Host.Outcome State Fault Refusal := done s.powerUp

/-- RESET_ASSERT (R20). -/
def execResetAssert (s : State) : Host.Outcome State Fault Refusal :=
  done (
    if s.rst.pinLow then s
    else
      let s1 := s.beginReset .resetPin
      s1.setRst { s1.rst with pinLow := true })

/-- BYPASS_ASSERT (R20). -/
def execBypassAssert (s : State) : Host.Outcome State Fault Refusal :=
  done (
    if s.rst.bypassLow then s
    else
      let s1 := s.beginReset .bypass
      s1.setRst { s1.rst with bypassLow := true })

/-! ### The release -/

/-- The strap pins stand at these levels from now on. -/
def State.setStrapPins (s : State) (straps : Straps) : State := { s with strapPins := straps }

/-- The straps take the levels at their pins (R20). -/
def State.sampleStraps (s : State) : State := { s with straps := s.strapPins }

/-- The release: the straps are sampled and start-up begins, with the pool test if one is owed (R20, R172). -/
def State.release (s : State) : State :=
  s.sampleStraps.setRst { s.rst with phase := if s.rst.testOwed then .poolTest else .startUp }

/-- The resets that `rst` still has are all over: the part is released, or else it goes on being held. -/
def State.afterPins (s : State) (rst : ResetUnit) : State :=
  let s1 := s.setRst rst
  if s1.held then s1 else s1.release

/-- BYPASS_RELEASE, with the levels at the strap pins (R20). With BYPASS# not low it brings those levels alone
(notes/assumptions/38.md). -/
def execBypassRelease (straps : Straps) (s : State) : Host.Outcome State Fault Refusal :=
  done (
    let s1 := s.setStrapPins straps
    if s1.rst.bypassLow then s1.afterPins { s1.rst with bypassLow := false } else s1)

/-- RESET_RELEASE, with the levels at the strap pins: the power-on reset or RESET# is released; BYPASS# low goes on
holding the part (R20, R172). With neither to release it brings those levels alone (notes/assumptions/38.md). -/
def execResetRelease (straps : Straps) (s : State) : Host.Outcome State Fault Refusal :=
  done (
    let s1 := s.setStrapPins straps
    if s1.rst.supply ∨ s1.rst.pinLow then s1.afterPins { s1.rst with supply := false, pinLow := false } else s1)

/-! ### Start-up -/

/-- Step 2 of R172: the image memory and the window 0 image are zeroed, the free list of a usable pool is built. -/
def State.zeroAll (s : State) : State :=
  { s with
    pool := { s.pool with mem := [], free := if s.pool.usable then List.range Config.poolGranules else [] }
    win0 := Win0.reset }

/-- The judgement of the store is held by the Status Unit; a torn store's judgement has drawn a free value (R169,
notes/assumptions/8.md). -/
def State.noteStore (s : State) (cond : StoreCondition) : State :=
  { s with
    status := { s.status with store := cond }
    freeCount := if s.store = .torn then s.freeCount + 1 else s.freeCount }

/-- Step 3 of R172: the store is judged and the profile, or the defaults, taken. -/
def State.readProfile (s : State) : State :=
  let p := s.storedProfile.getD Profile.default
  ((s.applyProfile p).noteStore s.judgeStore).installAll p.defns

/-- Step 4 of R172: the start-enabled windows go LIVE, in ascending window number. -/
def State.startWindows (s : State) : State :=
  (s.placesWhere fun w => w.defn.startEnabled).foldl State.goLive s

/-- Step 5 of R172: auto-join. -/
def State.autoJoinNow (s : State) : State :=
  if s.link.autoJoin ∧ 1 ≤ s.link.car ∧ s.link.car ≤ 127 then s.enterStarting else s

/-- Start-up ends: READY, or DONE with the RSET result (R161, R173). -/
def State.endStartUp (s : State) : State :=
  let s1 := s.setRst { s.rst with phase := .running }
  if s1.rst.kind = .rset then s1.completeAs codeRSET .ok [] else s1

/-- Steps 2 to 5 and the end of start-up (R172, R173). -/
def State.finishStartUp (s : State) : State :=
  s.zeroAll.readProfile.startWindows.autoJoinNow.endStartUp

/-- The start-up pool test has completed with this outcome (R29, R172). -/
def State.testOutcome (s : State) (failed : Bool) : State :=
  ({ s with pool := { s.pool with usable := !failed } } : State).setRst { s.rst with testOwed := false }

/-- POOL_TEST_END (R172). -/
def execPoolTestEnd (failed : Bool) (s : State) : Host.Outcome State Fault Refusal :=
  done (
    if s.held then s
    else if s.rst.phase = .poolTest then (s.testOutcome failed).finishStartUp
    else s)

/-- END_OF_START_UP (R172). -/
def execEndOfStartUp (s : State) : Host.Outcome State Fault Refusal :=
  done (
    if s.held then s
    else if s.rst.phase = .startUp then s.finishStartUp
    else s)

end Sys2Proof.Machine
end

