-- ==== Sys2Proof/Machine/Commands.lean ====
section
/-! DEFINITION. The mailbox commands at their snapshots, and their later grants and ends (spec/09 section 9.4, spec/11
section 11.2, spec/12 R175 and R176). A row whose command is not at that point changes nothing
(notes/assumptions/11.md). -/

namespace Sys2Proof.Machine

/-! ### Shared operations -/

/-- BAD_PARAM with the index of the word that failed (R149). -/
def State.badParam (s : State) (word : Nat) : State := s.complete .badParam [byteOf word]

/-- The command stays BUSY and waits. -/
def State.await (s : State) (w : Work) : State := { s with mbox := { s.mbox with work := w } }

/-- The installed granules are cleared one per grant, or the command completes when there are none (R28, R153, R171). -/
def State.awaitClearing (s : State) (items : List ClearItem) (data : List Byte) : State :=
  if items = [] then s.complete .ok data else s.await (.clearing items data)

/-- The window that parameter word 1 names, if it is 1 to 31. -/
def State.winParam (s : State) : Option WinNo := winNo? (s.paramNat 1)

/-! ### UNKNOWN_COMMAND and SETW -/

/-- UNKNOWN_COMMAND (R147). -/
def execUnknownCommand (s : State) : Host.Outcome State Fault Refusal :=
  done (s.onCommand (fun t => !commandCodes.contains t.mbox.code) fun t => t.complete .unknownCommand [])

/-- SETW's parameter block as a definition (R175). -/
def State.setwDefn (s : State) : RawDefn :=
  { number := s.paramNat 1, kind := s.paramNat 2, base := s.paramNat 3 + 0x10000 * s.paramNat 4
    length := s.paramNat 5, topic := s.paramNat 6, cls := s.paramNat 7, mode := s.paramNat 8
    trigger := s.paramNat 9, refresh := s.paramNat 10, hold := s.paramNat 11, action := s.paramNat 12
    fallback := s.paramNat 13, release := s.paramNat 14, group := s.paramNat 15, start := s.paramNat 16 }

/-- SETW completes with the result of the check that failed (R153, R176). -/
def State.refuseDefn (s : State) : DefnFail → State
  | .badParam k => s.badParam k
  | .windowState => s.complete .windowState []
  | .overlap n => s.complete .overlap [byteOf n]
  | .topicInUse n => s.complete .topicInUse [byteOf n]
  | .noRoom cost room => s.complete .noRoom (countWord cost ++ countWord room)
  | .imageFault => s.complete .imageFault []

/-- SETW after its parity check (R153). -/
def State.setwBody (s : State) : State :=
  match s.checkDefn s.setwDefn with
  | .error f => s.refuseDefn f
  | .ok (n, d) =>
    let s1 := s.install n d
    s1.awaitClearing (s1.clearItems n) (countWord d.cost ++ countWord s1.pool.free.length)

/-- SETW (R153). -/
def execSetw (s : State) : Host.Outcome State Fault Refusal :=
  done (s.runCommand codeSETW 16 State.setwBody)

/-! ### ENBW, DISW, DELW, QRYW, PUSH -/

/-- A command that names a window 1 to 31 in word 1 (R154). -/
def State.onWindow (s : State) (f : WinNo → State) : State :=
  match s.winParam with
  | some n => f n
  | none => s.badParam 1

/-- ENBW after its parity check (R30, R154). -/
def State.enbwBody (s : State) : State :=
  s.onWindow fun n =>
    match s.win n with
    | some w =>
      if w.state = .idle then (s.setPlace n (some { w with state := .pending })).await (.enbw n)
      else s.complete .windowState []
    | none => s.complete .windowState []

/-- ENBW (R154). -/
def execEnbw (s : State) : Host.Outcome State Fault Refusal :=
  done (s.runCommand codeENBW 1 State.enbwBody)

/-- DISW after its parity check (R32, R84, R154). -/
def State.diswBody (s : State) : State :=
  s.onWindow fun n =>
    match s.liveWin n with
    | some _ => (s.close n).await (.disw n)
    | none => s.complete .windowState []

/-- DISW (R154). -/
def execDisw (s : State) : Host.Outcome State Fault Refusal :=
  done (s.runCommand codeDISW 1 State.diswBody)

/-- DELW after its parity check (R34, R154). -/
def State.delwBody (s : State) : State :=
  s.onWindow fun n =>
    match s.win n with
    | some w =>
      if w.state = .idle then
        let s1 := s.freePlace n
        s1.complete .ok (countWord s1.pool.free.length)
      else s.complete .windowState []
    | none => s.complete .windowState []

/-- DELW (R154). -/
def execDelw (s : State) : Host.Outcome State Fault Refusal :=
  done (s.runCommand codeDELW 1 State.delwBody)

/-- QRYW after its parity check (R155). -/
def State.qrywBody (s : State) : State := s.onWindow fun n => s.complete .ok (s.placeReport n)

/-- QRYW (R155). -/
def execQryw (s : State) : Host.Outcome State Fault Refusal :=
  done (s.runCommand codeQRYW 1 State.qrywBody)

/-- PUSH after its parity check (R55, R154). -/
def State.pushBody (s : State) : State :=
  s.onWindow fun n =>
    match s.liveWin n with
    | some w =>
      if w.isPublish then (s.changeAll n w.sendable).complete .ok (countWord w.sendable.length)
      else s.badParam 1
    | none => s.complete .windowState []

/-- PUSH (R55, R154). -/
def execPush (s : State) : Host.Outcome State Fault Refusal :=
  done (s.runCommand codePUSH 1 State.pushBody)

/-! ### PEEK -/

/-- PEEK's offset and length conditions, or the word that fails (R156; notes/assumptions/13.md). -/
def peekRange (offset length window : Nat) : Option Nat :=
  if offset % 16 ≠ 0 then some 3
  else if length % 16 ≠ 0 ∨ length = 0 ∨ 64 < length then some 4
  else if window < offset + length then some 4
  else none

/-- PEEK after its parity check (R156). -/
def State.peekBody (s : State) : State :=
  s.onWindow fun n =>
    match s.win n with
    | none => s.complete .windowState []
    | some w =>
      if (w.image (s.paramNat 2)).isNone then s.badParam 2
      else
        match peekRange (s.paramNat 3) (s.paramNat 4) w.defn.length with
        | some k => s.badParam k
        | none =>
          s.await (.peek
            { win := n, image := s.paramNat 2
              todo := (List.range (s.paramNat 4 / 16)).map (s.paramNat 3 / 16 + ·), bytes := [], flags := [] })

/-- PEEK (R156). -/
def execPeek (s : State) : Host.Outcome State Fault Refusal :=
  done (s.runCommand codePEEK 4 State.peekBody)

/-- One granule of a PEEK read under one grant; the command completes after the last (R156). -/
def State.peekGranule (s : State) (j : PeekJob) (w : Window) (map : List Nat) (g : Nat) (rest : List Nat) : State :=
  let bytes := j.bytes ++ s.granule map g
  let flags := j.flags ++ w.imageFlags j.image g
  let s1 := s.endGrant
  if rest = [] then s1.complete .ok (bytes ++ peekFlags j.image flags)
  else s1.await (.peek { j with todo := rest, bytes := bytes, flags := flags })

/-- PEEK_GRANULE_READ (R156). -/
def execPeekGranuleRead (s : State) : Host.Outcome State Fault Refusal :=
  done (
    if s.port = some .mailbox then
      match s.mbox.work with
      | .peek j =>
        match s.win j.win, j.todo with
        | some w, g :: rest => s.peekGranule j w ((w.image j.image).getD []) g rest
        | _, _ => s
      | _ => s
    else s)

/-! ### GRANULE_CLEAR -/

/-- GRANULE_CLEAR (R28, R153, R171). -/
def execGranuleClear (s : State) : Host.Outcome State Fault Refusal :=
  done (
    if s.port = some .mailbox then
      match s.mbox.work with
      | .clearing (c :: rest) data => ((s.endGrant).clearGranule c).awaitClearing rest data
      | _ => s
    else s)

/-! ### SETID, JOIN, LEAVE, HOLD, RESUME, NBRS -/

/-- SETID's parameter words 1 to 14. -/
def State.setidValues (s : State) : List Nat := (List.range 14).map fun i => s.paramNat (i + 1)

/-- SETID after its parity check (R157). -/
def State.setidBody (s : State) : State :=
  if s.link.state = .off then
    match firstOutside s.setidValues with
    | some k => s.badParam k
    | none => (s.setIdentity (s.paramNat 1) (Params.ofList (s.setidValues.drop 1))).complete .ok []
  else s.complete .linkState []

/-- SETID (R157). -/
def execSetid (s : State) : Host.Outcome State Fault Refusal :=
  done (s.runCommand codeSETID 14 State.setidBody)

/-- JOIN after its snapshot (R118, R157). -/
def State.joinBody (s : State) : State :=
  if s.link.state = .off then
    if 1 ≤ s.link.car ∧ s.link.car ≤ 127 then s.enterStarting.await .join
    else s.complete .noIdentity []
  else s.complete .linkState []

/-- JOIN (R157). -/
def execJoin (s : State) : Host.Outcome State Fault Refusal :=
  done (s.runCommand codeJOIN 0 State.joinBody)

/-- LEAVE after its snapshot (R130, R157, R169). -/
def State.leaveBody (s : State) : State :=
  if s.link.state = .off then s.complete .ok []
  else ({ s with link := { s.link with leave := true, autoJoin := false } } : State).await .leave

/-- LEAVE (R130, R157). -/
def execLeave (s : State) : Host.Outcome State Fault Refusal :=
  done (s.runCommand codeLEAVE 0 State.leaveBody)

/-- The publication HOLD flag (R71). -/
def State.setHold (s : State) (b : Bool) : State := { s with journal := { s.journal with hold := b } }

/-- HOLD and RESUME after their snapshot (R71, R157). -/
def State.holdBody (b : Bool) (s : State) : State := (s.setHold b).complete .ok []

/-- HOLD (R71, R157). -/
def execHold (s : State) : Host.Outcome State Fault Refusal :=
  done (s.runCommand codeHOLD 0 (State.holdBody true))

/-- RESUME (R71, R157). -/
def execResume (s : State) : Host.Outcome State Fault Refusal :=
  done (s.runCommand codeRESUME 0 (State.holdBody false))

/-- NBRS after its snapshot (R155). -/
def State.nbrsBody (s : State) : State := s.complete .ok s.neighbourReport

/-- NBRS (R155). -/
def execNbrs (s : State) : Host.Outcome State Fault Refusal :=
  done (s.runCommand codeNBRS 0 State.nbrsBody)

/-! ### CNTR and ALRT -/

/-- Every counter is set to 0 and the peak to the occupancy (R14, R158). -/
def State.clearCounters (s : State) : State :=
  { s with
    status := { s.status with counters := Vector.replicate 24 0 }
    tap := { s.tap with peak := s.tap.fifo.length } }

/-- CNTR after its parity check (R158). -/
def State.cntrBody (s : State) : State :=
  if 1 < s.paramNat 1 then s.badParam 1
  else (if s.paramNat 1 = 1 then s.clearCounters else s).complete .ok s.counterReport

/-- CNTR (R158). -/
def execCntr (s : State) : Host.Outcome State Fault Refusal :=
  done (s.runCommand codeCNTR 1 State.cntrBody)

/-- The first word of ALRT's block out of range (R158, R175; notes/assumptions/13.md). -/
def State.alrtFails (s : State) : Option Nat :=
  if 4096 ≤ s.paramNat 1 then some 1
  else if 4096 ≤ s.paramNat 2 then some 2
  else if 1 < s.paramNat 3 then some 3
  else if 4096 ≤ s.paramNat 4 then some 4
  else none

/-- A parameter word as an alert set (R175). -/
def State.setParam (s : State) (k : Nat) : AlertSet := (s.param k).setWidth 12

/-- ALRT's step on the Status Unit (R158). -/
def State.setAlerts (s : State) : State :=
  { s with status := { s.status with
      record := s.setParam 1, signal := s.setParam 2, autoClear := decide (s.paramNat 3 = 1)
      pending := s.status.pending &&& ~~~s.setParam 4 } }

/-- ALRT after its parity check (R158; notes/assumptions/18.md for the set reported). -/
def State.alrtBody (s : State) : State :=
  match s.alrtFails with
  | some k => s.badParam k
  | none =>
    let s1 := s.setAlerts
    s1.complete .ok (busWord (setWord s1.status.pending))

/-- ALRT (R158). -/
def execAlrt (s : State) : Host.Outcome State Fault Refusal :=
  done (s.runCommand codeALRT 4 State.alrtBody)

/-! ### PSAV and PLOD -/

/-- PSAV: the contents are taken, the store condition becomes INVALID, the write begins (R159, R170). -/
def State.psavBody (s : State) : State :=
  let bytes := s.profileBytes
  let s1 : State := { s with
    status := { s.status with store := .invalid }
    freeCount := s.freeCount + bytes.length }
  s1.await (.psav bytes)

/-- PSAV (R170). -/
def execPsav (s : State) : Host.Outcome State Fault Refusal :=
  done (s.runCommand codePSAV 0 State.psavBody)

/-- PSAV's response data (R176). -/
def psavData (profile : List Byte) : List Byte := countWord profile.length ++ [byteAt profile 24]

/-- The write of a profile ends with this read-back (R170). -/
def State.endWrite (s : State) (profile readBack : List Byte) : State :=
  let s1 : State := { s with store := Store.ofBytes readBack }
  if readBack = profile then
    ({ s1 with status := { s1.status with store := .valid } } : State).complete .ok (psavData profile)
  else s1.complete .profileWrite []

/-- PROFILE_WRITE_END (R170). -/
def execProfileWriteEnd (readBack : List Byte) (s : State) : Host.Outcome State Fault Refusal :=
  done (match s.mbox.work with
    | .psav profile => s.endWrite profile readBack
    | _ => s)

/-- PROFILE_WRITE_TIMEOUT (R170; notes/assumptions/8.md for what the store holds then). -/
def execProfileWriteTimeout (s : State) : Host.Outcome State Fault Refusal :=
  done (match s.mbox.work with
    | .psav profile => (s.cutWrite profile).complete .profileWrite []
    | _ => s)

/-- A set of window numbers, bit n for window n (R175). -/
def windowSet (l : List Nat) : BitVec 32 := l.foldl (fun b n => b ||| (1#32 <<< n)) 0

/-- The windows of a profile that were refused (R171). -/
def State.refusedWindows (s : State) (p : Profile) : BitVec 32 :=
  windowSet ((p.defns.map RawDefn.number).filter fun k => !(s.definedPlaces.map Fin.val).contains k)

/-- Every group's state is absent (R74, R84). -/
def State.clearGroups (s : State) : State := { s with groups := Vector.replicate 8 Group.reset }

/-- The stored profile is installed into the running part; every place is FREE and every group's state absent before
(R25, R84, R171). -/
def State.loadProfile (s : State) (p : Profile) : State :=
  let s1 := (s.freeAll.clearGroups.applyProfile p).installAll p.defns
  s1.awaitClearing (s1.definedPlaces.flatMap s1.clearItems)
    ([byteOf s1.definedPlaces.length, 0] ++ busLong (s1.refusedWindows p))

/-- PLOD after its snapshot (R159, R171). -/
def State.plodBody (s : State) : State :=
  if s.anyWindowInUse then s.complete .windowState []
  else if s.link.state ≠ .off then s.complete .linkState []
  else
    match s.status.store, s.storedProfile with
    | .valid, some p => s.loadProfile p
    | _, _ => s.complete .profileInvalid []

/-- PLOD (R171). -/
def execPlod (s : State) : Host.Outcome State Fault Refusal :=
  done (s.runCommand codePLOD 0 State.plodBody)

/-! ### TEST -/

/-- TEST minor 1 after its parity check; a minor other than 1 and 2 fails here too (R160). -/
def State.test1Body (s : State) : State :=
  if s.paramNat 1 ≠ 1 then s.badParam 1
  else if s.anyWindowInUse then s.complete .windowState []
  else if !s.pool.usable then s.complete .imageFault []
  else s.await (.poolTest { gran := 0, op := 0, bad := false, fails := 0, lowest := none })

/-- TEST_MINOR_1 (R160): a TEST whose minor is not 2. -/
def execTestMinor1 (s : State) : Host.Outcome State Fault Refusal :=
  done (s.onCommand (fun t => decide (t.mbox.code = codeTEST) && decide (t.param 1 ≠ 2)) fun t =>
    t.checkWords 1 State.test1Body)

/-- The patterns of TEST minor 2, for words 2 to 9 (R160). -/
def busPatterns : List Word := [0x5555, 0xAAAA, 0x3333, 0xCCCC, 0x0F0F, 0xF0F0, 0x00FF, 0xFF00]

/-- The data mismatch mask (R160). -/
def State.busMask (s : State) : Word :=
  (busPatterns.mapIdx fun i p => s.param (i + 2) ^^^ p).foldl (· ||| ·) 0

/-- The parity-bad flags of words 2 to 9. -/
def State.patternFlags (s : State) : List Bool := (List.range 8).map fun i => s.paramBad (i + 2)

/-- TEST minor 2 after its parity check; a minor other than 1 and 2 fails here too (R160). -/
def State.test2Body (s : State) : State :=
  if s.paramNat 1 ≠ 2 then s.badParam 1
  else
    let flags := s.patternFlags
    let parity := byteOf ((if flags.any id then 1 else 0) + if flags.all id then 2 else 0)
    s.complete (if s.busMask = 0 ∧ flags.any id = false then .ok else .testFailed)
      (busWord s.busMask ++ [parity, 0])

/-- TEST_MINOR_2 (R160): a TEST whose minor is not 1. -/
def execTestMinor2 (s : State) : Host.Outcome State Fault Refusal :=
  done (s.onCommand (fun t => decide (t.mbox.code = codeTEST) && decide (t.param 1 ≠ 1)) fun t =>
    t.checkWords 1 State.test2Body)

/-- Fill a pool granule. -/
def State.fillGranule (s : State) (g : Nat) (b : Byte) : State := s.setGranule [g] 0 (List.replicate 16 b)

/-- Every flag of an IDLE window's images cleared, as after SETW (R28, R160). -/
def Window.clearAll (w : Window) : Window :=
  { w with
    pub := { w.pub with
      known := w.pub.known.map fun _ => false, dirty := w.pub.dirty.map fun _ => false
      filled := w.pub.filled.map fun _ => false, states := w.pub.states.map fun _ => .idle }
    ov := { w.ov with
      present := w.ov.present.map fun _ => false, staged := w.ov.staged.map fun _ => false } }

/-- The granule under test has been through its five operations: the count of failures (R160). -/
def PoolTest.counted (t : PoolTest) : PoolTest :=
  if t.bad then { t with fails := t.fails + 1, lowest := some (t.lowest.getD t.gran) } else t

/-- TEST minor 1 ends (R160, R176). -/
def State.endPoolTest (s : State) (t : PoolTest) : State :=
  let s1 := s.modAll fun w => if w.state = .idle then w.clearAll else w
  if t.fails = 0 then s1.complete .ok []
  else s1.complete .testFailed (countWord t.fails ++ countWord (t.lowest.getD 0))

/-- One of a granule's five operations: 0x55 written, read back, 0xAA written, read back, 0x00 written (R160). -/
def State.testOperation (s : State) (t : PoolTest) (good : Bool) : State :=
  let s1 := s.endGrant
  match t.op with
  | 0 => (s1.fillGranule t.gran 0x55).await (.poolTest { t with op := 1, bad := false })
  | 1 => s1.await (.poolTest { t with op := 2, bad := !good })
  | 2 => (s1.fillGranule t.gran 0xAA).await (.poolTest { t with op := 3 })
  | 3 => s1.await (.poolTest { t with op := 4, bad := t.bad || !good })
  | _ =>
    let s2 := s1.fillGranule t.gran 0x00
    let t1 := t.counted
    if Config.poolGranules ≤ t.gran + 1 then s2.endPoolTest t1
    else s2.await (.poolTest { t1 with gran := t.gran + 1, op := 0, bad := false })

/-- POOL_TEST_OPERATION (R160). -/
def execPoolTestOperation (good : Bool) (s : State) : Host.Outcome State Fault Refusal :=
  done (
    if s.port = some .mailbox then
      match s.mbox.work with
      | .poolTest t => s.testOperation t good
      | _ => s
    else s)

/-! ### RSET -/

/-- RSET: a reset of kind RSET begins, and the step after it begins releases it, sampling the straps at their pins.
Nothing comes between the two steps, so one row holds both (R20, R161; notes/assumptions/19.md, 38.md). -/
def State.rsetBody (s : State) : State := (s.beginReset .rset).release

/-- RSET (R161). -/
def execRset (s : State) : Host.Outcome State Fault Refusal :=
  done (s.runCommand codeRSET 0 State.rsetBody)

/-! ### A snapshot that another unit's row ends -/

/-- A TEST at its checks, by its minor (R160). -/
def State.testActs (s : State) : State :=
  if s.param 1 = 2 then s.checkWords 1 State.test2Body else s.checkWords 1 State.test1Body

/-- What each command does at its checks, by its code (R147, R152, R175). -/
def commandActs : List (Word × (State → State)) :=
  [(codeSETW, fun s => s.checkWords 16 State.setwBody),
    (codeENBW, fun s => s.checkWords 1 State.enbwBody),
    (codeDISW, fun s => s.checkWords 1 State.diswBody),
    (codeDELW, fun s => s.checkWords 1 State.delwBody),
    (codeQRYW, fun s => s.checkWords 1 State.qrywBody),
    (codePUSH, fun s => s.checkWords 1 State.pushBody),
    (codePEEK, fun s => s.checkWords 4 State.peekBody),
    (codeSETID, fun s => s.checkWords 14 State.setidBody),
    (codeJOIN, fun s => s.checkWords 0 State.joinBody),
    (codeLEAVE, fun s => s.checkWords 0 State.leaveBody),
    (codeHOLD, fun s => s.checkWords 0 (State.holdBody true)),
    (codeRESUME, fun s => s.checkWords 0 (State.holdBody false)),
    (codeNBRS, fun s => s.checkWords 0 State.nbrsBody),
    (codeCNTR, fun s => s.checkWords 1 State.cntrBody),
    (codeALRT, fun s => s.checkWords 4 State.alrtBody),
    (codePSAV, fun s => s.checkWords 0 State.psavBody),
    (codePLOD, fun s => s.checkWords 0 State.plodBody),
    (codeTEST, State.testActs),
    (codeRSET, fun s => s.checkWords 0 State.rsetBody)]

/-- The command at its checks, whichever it is: checked and carried out (R147). -/
def State.actOnCommand (s : State) : State :=
  match commandActs.find? fun a => decide (a.1 = s.mbox.code) with
  | some a => a.2 s
  | none => s.complete .unknownCommand []

/-- The snapshot's grant ends, and at its end the command is checked and carried out: it completes there, or waits for its
completion event (R146 to R148). A DISW that passes its checks is left at them, because R78 has it taken in a grant of the
Frame Engine too (notes/assumptions/12.md). -/
def State.endSnapshot (s : State) : State :=
  let t := s.takeSnapshot
  let u := t.actOnCommand
  if t.mbox.code = codeDISW ∧ u.mbox.state = .busy then t else u

/-- The port for a requester whose operation comes now, when the arbiter has granted it. A snapshot under way ends first,
and the arbiter then decides (R38, R146, R148; notes/assumptions/12.md). -/
def State.portFor (s : State) (r : Requester) : Option State :=
  let s1 := if s.snapshotGranted then s.endSnapshot.arbitrate else s
  if s1.port.map PortGrant.requester = some r then some s1 else none

end Sys2Proof.Machine
end

