-- ==== Sys2Proof/Machine/Tap.lean ====
section
/-! DEFINITION. The Bus Tap (spec/01): the bus path, substitution lane by lane, capture and the Capture FIFO,
release-on-write and learning requests; C_PORT_WRITE and C_PORT_READ. -/

namespace Sys2Proof.Machine

/-! ### The Capture FIFO -/

/-- An entry of either kind joins at the tail: the peak follows, and CAPTURE_NEAR is raised when the occupancy comes
from 47 to 48 (R14, R15). -/
def State.insertEntry (s : State) (e : FifoEntry) : State :=
  let n := s.tap.fifo.length + 1
  let s1 : State := { s with tap := { s.tap with fifo := s.tap.fifo ++ [e], peak := max s.tap.peak n } }
  if n = Config.fifoNear then s1.raise .captureNear else s1

/-- The WRITE entry of a capturable write, with the parity-good flags of its lanes (R5, R13). DESIGN CHOICE
(notes/assumptions/36.md): the flag of a lane that was not enabled, which R5 does not define, is computed from what the
C-port presents there; nothing reads it. -/
def State.captured (s : State) (n : WinNo) (c : BusCycle) : Captured :=
  { win := n, addr := c.addr, data := c.data, low := c.low, high := c.high
    goodLow := laneGood s.straps (lowByte c.data) c.parLow
    goodHigh := laneGood s.straps (highByte c.data) c.parHigh }

/-- A capturable write is offered to the Capture FIFO: taken and counted (R13), or lost at a full FIFO (R16). -/
def State.capture (s : State) (n : WinNo) (c : BusCycle) : State :=
  if s.tap.fifo.length < Config.fifoDepth then (s.insertEntry (.write (s.captured n c))).count .captured
  else ({ s with tap := { s.tap with loss := s.tap.loss ||| (1#32 <<< n.val) } } : State).raise .captureLoss

/-! ### Writes -/

/-- The granule's present flag is cleared by a write to a release-on-write window (R18, R88). -/
def State.releaseGranule (s : State) (n : WinNo) (w : Window) (offset : Nat) : State :=
  s.setPlace n (some { w with ov := { w.ov with present := w.ov.present.set (offset / 16) false } })

/-- A write in a window, at an offset from its base (R12, R18). -/
def State.writeIn (s : State) (c : BusCycle) (n : WinNo) (offset : Nat) : State :=
  if n = 0 then s.capture 0 c
  else
    match s.liveWin n with
    | none => s
    | some w =>
      match w.defn.body with
      | .publish _ => s.capture n c
      | .status => if offset = 0x30 then s.capture n c else s
      | .subscribe d => if d.releaseOnWrite then s.releaseGranule n w offset else s

/-- What a write does in the window its address matches, if any. -/
def State.writeAt (s : State) (c : BusCycle) : Option (WinNo × Nat) → State
  | none => s
  | some m => s.writeIn c m.1 m.2

/-- What a write with an enabled lane does beside passing to memory (R4, R12, R18). -/
def State.tapWrite (s : State) (c : BusCycle) : State := s.writeAt c (s.matchAddr (lowAddr c.addr))

/-- The cycle as the pins carry it, with what the C-port returns. -/
def State.setBus (s : State) (b : BusPins) : State := { s with bus := some b }

/-- A write passes to the M-port unchanged (R2). -/
def passedPins (c : BusCycle) : BusPins :=
  { write := true, cycle := c, cData := c.data, cParLow := c.parLow, cParHigh := c.parHigh }

/-- C_PORT_WRITE (R2, R12, R18). -/
def execCPortWrite (c : BusCycle) (s : State) : Host.Outcome State Fault Refusal :=
  done (
    let s1 := s.setBus (passedPins c)
    if s.held || !anyLane c then s1 else s1.tapWrite c)

/-! ### Reads -/

/-- The status word of window 0 (R8). -/
def MailboxState.statusWord? : MailboxState → Option Word
  | .ready => none
  | .busy => some 0x7F01
  | .done => some 0x7F02
  | .fail => some 0x7F03

/-- The bytes of a word, low lane first. -/
def wordLanes (w : Word) : Option Byte × Option Byte := (some (lowByte w), some (highByte w))

/-- Substitution in window 0 (R8). -/
def State.mailboxLanes (s : State) (offset : Nat) : Option Byte × Option Byte :=
  if offset = 0 then
    match s.mbox.state.statusWord? with
    | some w => wordLanes w
    | none => (none, none)
  else if 0x80 ≤ offset ∧ (s.mbox.state = .done ∨ s.mbox.state = .fail) then
    let b := s.mbox.response.bytes
    (some (byteAt b (offset - 0x80)), some (byteAt b (offset - 0x7F)))
  else (none, none)

/-- Substitution in a LIVE SUBSCRIBE window (R10). -/
def State.overlayLanes (s : State) (w : Window) (offset : Nat) : Option Byte × Option Byte :=
  match w.servesFallback with
  | some word => wordLanes word
  | none =>
    if w.ov.present.getD (offset / 16) false then
      (some (s.imageByte w.activeMap offset), some (s.imageByte w.activeMap (offset + 1)))
    else (none, none)

/-- Substitution in a window, at an offset from its base (R7 to R10). -/
def State.substituteIn (s : State) (n : WinNo) (offset : Nat) : Option Byte × Option Byte :=
  if n = 0 then s.mailboxLanes offset
  else
    match s.liveWin n with
    | none => (none, none)
    | some w =>
      match w.defn.body with
      | .publish _ => (none, none)
      | .status => wordLanes (s.statusWord offset)
      | .subscribe _ => s.overlayLanes w offset

/-- Substitution in the window an address matches, if any. -/
def State.substituteAt (s : State) : Option (WinNo × Nat) → Option Byte × Option Byte
  | none => (none, none)
  | some m => s.substituteIn m.1 m.2

/-- The bytes substituted for the low and the high lane of a word, if any (R7 to R10, R20). -/
def State.substitute (s : State) (a : BitVec 23) : Option Byte × Option Byte :=
  if s.held then (none, none) else s.substituteAt (s.matchAddr (lowAddr a))

/-- What a lane returns: its data and parity (R3, R6). -/
def laneReturn (st : Straps) (enabled : Bool) (sub : Option Byte) (mem : Byte) (par : Bool) : Byte × Bool :=
  match enabled, sub with
  | true, some b => (b, if st.paren then genParity st b else par)
  | _, _ => (mem, par)

/-- The read cycle as the pins carry it (R3, R6). -/
def State.readPins (s : State) (c : BusCycle) : BusPins :=
  let sub := s.substitute c.addr
  let low := laneReturn s.straps c.low sub.1 (lowByte c.data) c.parLow
  let high := laneReturn s.straps c.high sub.2 (highByte c.data) c.parHigh
  { write := false, cycle := c, cData := joinBytes high.1 low.1, cParLow := low.2, cParHigh := high.2 }

/-- The learning request of a read in a window: it is a LIVE PUBLISH window, and a byte of an enabled, parity-good lane
is unknown (R5, R19). -/
def State.learnIn (s : State) (c : BusCycle) (n : WinNo) (offset : Nat) : Option LearnRequest :=
  match s.liveWin n with
  | none => none
  | some w =>
    let low := c.low && laneGood s.straps (lowByte c.data) c.parLow
    let high := c.high && laneGood s.straps (highByte c.data) c.parHigh
    if n ≠ 0 ∧ w.isPublish ∧ ((low && !w.byteKnown offset) || (high && !w.byteKnown (offset + 1))) then
      some { win := n, addr := c.addr, data := c.data, low := low, high := high }
    else none

/-- The learning request of a read at the window its address matches, if any. -/
def State.learnAt (s : State) (c : BusCycle) : Option (WinNo × Nat) → Option LearnRequest
  | none => none
  | some m => s.learnIn c m.1 m.2

/-- The learning request of a read, if it makes one (R19). -/
def State.learnRequest (s : State) (c : BusCycle) : Option LearnRequest := s.learnAt c (s.matchAddr (lowAddr c.addr))

/-- Fill or empty the learning slot. -/
def State.setLearn (s : State) (r : Option LearnRequest) : State := { s with tap := { s.tap with learn := r } }

/-- The request is placed in the learning slot if it is free (R19). -/
def State.learn (s : State) (c : BusCycle) : State :=
  if s.tap.learn.isSome then s else s.setLearn (s.learnRequest c)

/-- C_PORT_READ (R3, R6 to R10, R19). -/
def execCPortRead (c : BusCycle) (s : State) : Host.Outcome State Fault Refusal :=
  done (
    let s1 := s.setBus (s.readPins c)
    if s.held then s1 else s1.learn c)

end Sys2Proof.Machine
end

