-- ==== Sys2Proof/Machine/Drain.lean ====
section
/-! DEFINITION. The Drain Engine (spec/03): learning requests, captured writes, losses, the window 0 image, alert-clear
writes and trigger copies; DRAIN_STEP. -/

namespace Sys2Proof.Machine

/-! ### Lanes of an entry -/

/-- The enabled lanes of a captured write: which byte of the word, the byte presented, and whether it is
parity-good. -/
def Captured.lanes (c : Captured) : List (Nat × Byte × Bool) :=
  (if c.low then [(0, lowByte c.data, c.goodLow)] else [])
    ++ if c.high then [(1, highByte c.data, c.goodHigh)] else []

/-- How many enabled lanes are parity-bad. -/
def Captured.badLanes (c : Captured) : Nat := (c.lanes.filter fun l => !l.2.2).length

/-- At least one enabled lane is parity-good. -/
def Captured.anyGood (c : Captured) : Bool := c.lanes.any fun l => l.2.2

/-- PARITY is raised and the parity-error count goes up for `n` parity-bad lanes (R42, R46, R47). -/
def State.parityErrors (s : State) (n : Nat) : State :=
  if n = 0 then s else (s.raise .parity).countN .parityErrors n

/-- The offset of the addressed word in a window. -/
def Window.offsetOf (w : Window) (a : BitVec 23) : Nat := lowAddr a - w.defn.base

/-! ### The shadow -/

/-- A shadow byte becomes known with this value. -/
def State.shadowSet (s : State) (n : WinNo) (w : Window) (offset : Nat) (b : Byte) : State :=
  (s.setImageByte w.mapA offset b).setPlace n
    (some { w with pub := { w.pub with known := w.pub.known.set offset true } })

/-- A shadow byte becomes unknown and keeps its value. -/
def State.shadowDoubt (s : State) (n : WinNo) (w : Window) (offset : Nat) : State :=
  s.setPlace n (some { w with pub := { w.pub with known := w.pub.known.set offset false } })

/-- One enabled lane of a write applied to the shadow (R42). -/
def shadowLane (n : WinNo) (offset : Nat) (s : State) (l : Nat × Byte × Bool) : State :=
  match s.win n with
  | some w => if l.2.2 then s.shadowSet n w (offset + l.1) l.2.1 else s.shadowDoubt n w (offset + l.1)
  | none => s

/-- Change the publication of a window. -/
def State.modPub (s : State) (n : WinNo) (f : Publication → Publication) : State :=
  s.modWin n fun w => { w with pub := f w.pub }

/-- The publication revision goes up by 1 (R51). -/
def State.newRevision (s : State) (n : WinNo) : State :=
  s.modPub n fun p => { p with revision := p.revision + 1 }

/-- One granule of the trigger copy: a DIRTY, fully known shadow granule goes into the snapshot (R50). -/
def copyGranule (n : WinNo) (s : State) (g : Nat) : State :=
  match s.win n with
  | some w =>
    if w.pub.dirty.getD g false && w.shadowKnown g then
      ((s.setGranule w.mapB g (s.granule w.mapA g)).setPlace n
        (some { w with pub := { w.pub with
          dirty := w.pub.dirty.set g false, filled := w.pub.filled.set g true } })).change n g
    else s
  | none => s

/-- The trigger copy (R50). -/
def State.triggerCopy (s : State) (n : WinNo) (w : Window) : State :=
  ((List.range w.granules).foldl (copyGranule n) s).newRevision n

/-- What follows a write in an ON_WRITE window: the revision when a byte was written (R51), and one change of the granule
touched, unless learning has already given it one in this step (R42, R43). -/
def State.wroteShadow (s : State) (n : WinNo) (g : Nat) (written changed : Bool) : State :=
  let s1 := if written then s.newRevision n else s
  if changed then s1 else s1.change n g

/-- A WRITE entry applied to a PUBLISH window; `changed` names a granule that has had its change in this step (R42, R43,
R49, R50). -/
def State.writePublish (s : State) (n : WinNo) (w : Window) (c : Captured) (changed : Option (WinNo × Nat)) : State :=
  let offset := w.offsetOf c.addr
  let g := offset / 16
  let s1 := (c.lanes.foldl (shadowLane n offset) s).parityErrors c.badLanes
  match w.mode? with
  | some .onWrite => s1.wroteShadow n g c.anyGood (decide (changed = some (n, g)))
  | some (.onTrigger t) =>
    let s2 := s1.modPub n fun p => { p with dirty := p.dirty.set g true }
    if offset = t ∧ c.anyGood then s2.triggerCopy n w else s2
  | none => s1

/-! ### Window 0 and the alert-clear word -/

/-- One enabled lane written into the window 0 image (R46). -/
def win0Lane (offset : Nat) (m : Memory) (l : Nat × Byte × Bool) : Memory :=
  m.write Config.imageDefault (offset + l.1) l.2.1

/-- A WRITE entry applied to the window 0 image, with its flag and its parity errors (R46). -/
def State.writeWin0 (s : State) (offset : Nat) (c : Captured) : State :=
  ({ s with win0 := { s.win0 with
      mem := c.lanes.foldl (win0Lane offset) s.win0.mem
      bad := if 0 < c.badLanes then s.win0.bad.set (offset / 2) true else s.win0.bad } } : State).parityErrors
    c.badLanes

/-- A WRITE entry at an offset of window 0; a write at offset 0 is handed to the Mailbox Unit with the word as the image
holds it (R46, R146). -/
def State.win0Entry (s : State) (c : Captured) (offset : Nat) : State :=
  let s1 := s.writeWin0 offset c
  if offset = 0 then s1.commandWrite (s1.win0Word 0) (decide (0 < c.badLanes)) else s1

/-- A WRITE entry for window 0 (R46). -/
def State.applyWin0 (s : State) (c : Captured) : State :=
  s.win0Entry c (lowAddr c.addr - win0Base s.straps.mb)

/-- The bits that an alert-clear write holds as 1 in its good lanes (R47). -/
def Captured.clearBits (c : Captured) : AlertSet :=
  (joinBytes (if c.high && c.goodHigh then highByte c.data else 0)
    (if c.low && c.goodLow then lowByte c.data else 0)).setWidth 12

/-- An alert-clear write (R47, R180). DESIGN CHOICE (notes/assumptions/35.md): the clearing is taken before the raising of
PARITY, whose order R47 and R164 leave open. -/
def State.alertClear (s : State) (c : Captured) : State :=
  ({ s with status := { s.status with pending := s.status.pending &&& ~~~c.clearBits } } : State).parityErrors
    c.badLanes

/-! ### Entries -/

/-- A WRITE entry is applied by the state of its window, or discarded (R40). -/
def State.applyWrite (s : State) (c : Captured) (changed : Option (WinNo × Nat)) : State :=
  if c.win = 0 then s.applyWin0 c
  else
    match s.liveWin c.win with
    | none => s
    | some w =>
      if w.fence ≠ 0 then s
      else
        match w.defn.body with
        | .publish _ => s.writePublish c.win w c changed
        | .status => if w.offsetOf c.addr = 0x30 then s.alertClear c else s
        | .subscribe _ => s

/-- A window named in a LOSS entry: unknown, and every granule marked (R45). -/
def State.loseShadow (s : State) (n : WinNo) (w : Window) : State :=
  let s1 := s.modPub n fun p => { p with known := p.known.map fun _ => false }
  match w.mode? with
  | some .onWrite => s1.changeAll n (List.range w.granules)
  | _ => s1.modPub n fun p => { p with dirty := p.dirty.map fun _ => true }

/-- One window of a LOSS entry (R45). -/
def lossWindow (set : BitVec 32) (s : State) (n : WinNo) : State :=
  if set.getLsbD n.val then
    if n = 0 then s.lostWrite
    else
      match s.liveWin n with
      | some w => if w.isPublish ∧ w.fence = 0 then s.loseShadow n w else s
      | none => s
  else s

/-- A LOSS entry, its windows in ascending number (R45). -/
def State.applyLoss (s : State) (set : BitVec 32) : State := (List.finRange 32).foldl (lossWindow set) s

/-! ### Learning -/

/-- The lanes of a learning request. -/
def LearnRequest.lanes (r : LearnRequest) : List (Nat × Byte) :=
  (if r.low then [(0, lowByte r.data)] else []) ++ if r.high then [(1, highByte r.data)] else []

/-- One lane of a learning request: an unknown byte is learned and counted (R44). -/
def learnLane (n : WinNo) (offset : Nat) (s : State) (l : Nat × Byte) : State :=
  match s.win n with
  | some w =>
    if w.byteKnown (offset + l.1) then s else (s.shadowSet n w (offset + l.1) l.2).count .learned
  | none => s

/-- A granule of a window's shadow is fully known. -/
def State.shadowFull (s : State) (n : WinNo) (g : Nat) : Bool :=
  match s.win n with
  | some w => w.shadowKnown g
  | none => false

/-- After the lanes of a learning request: a granule of an ON_WRITE window that has become fully known gets a change, and
is named (R43). -/
def State.filledChange (s : State) (n : WinNo) (w : Window) (g : Nat) : State × Option (WinNo × Nat) :=
  if w.mode? = some .onWrite ∧ w.shadowKnown g = false ∧ s.shadowFull n g = true then
    (s.change n g, some (n, g))
  else (s, none)

/-- A learning request is applied; the granule it gave a change to is named (R43, R44). -/
def State.applyLearn (s : State) (r : LearnRequest) : State × Option (WinNo × Nat) :=
  match s.liveWin r.win with
  | some w =>
    if w.isPublish then
      let offset := w.offsetOf r.addr
      (r.lanes.foldl (learnLane r.win offset) s).filledChange r.win w (offset / 16)
    else (s, none)
  | none => (s, none)

/-- The learning request that a drain step took, if any, is applied (R39, R44). -/
def State.applyTaken (s : State) (d : DrainStep) : State × Option (WinNo × Nat) :=
  match d.learn with
  | some r => s.applyLearn r
  | none => (s, none)

/-! ### The drain step -/

/-- The head entry is applied whole (R40, R45). -/
def State.applyEntry (s : State) (e : FifoEntry) (changed : Option (WinNo × Nat)) : State :=
  match e with
  | .write c => s.applyWrite c changed
  | .loss set => s.applyLoss set

/-- When a place frees while the loss set is not empty, a LOSS entry fills it (R17). -/
def State.insertLoss (s : State) : State :=
  if s.tap.loss = 0 then s
  else
    let s1 := (s.insertEntry (.loss s.tap.loss)).count .lossEntries
    { s1 with tap := { s1.tap with loss := 0 } }

/-- The entry leaves the FIFO: every fence above 0 goes down by 1, and a LOSS entry may fill the place (R17, R39,
R41). -/
def State.dropHead (s : State) : State :=
  let s1 : State := { s with tap := { s.tap with fifo := s.tap.fifo.tail } }
  (s1.modAll fun w => { w with fence := w.fence - 1 }).insertLoss

/-- The head entry, applied whole, leaves the FIFO (R39). -/
def State.drainHead (s : State) (changed : Option (WinNo × Nat)) : State :=
  match s.tap.fifo with
  | e :: _ => (s.applyEntry e changed).dropHead
  | [] => s

/-- A drain step carried out, with which its grant ends: the learning request it took, then the entry it took; what came to
the slot and the FIFO after the step began waits for the next one (R37, R39). -/
def State.drain (s : State) (d : DrainStep) : State :=
  let r := s.endGrant.applyTaken d
  if d.entry then r.1.drainHead r.2 else r.1

/-- DRAIN_STEP (R39). -/
def execDrainStep (s : State) : Host.Outcome State Fault Refusal :=
  done (match s.portFor .drain with
    | some t => match t.port with
      | some (.drain d) => t.drain d
      | _ => t
    | none => s)

end Sys2Proof.Machine
end

