-- ==== Sys2Proof/Machine/Port.lean ====
section
/-! DEFINITION. The frame port (spec/06 section 6.5) and the dispatch of received frames (R133): delimiters, frame ends,
record reads, transmission ends, delivery records and LOCK. -/

namespace Sys2Proof.Machine

/-! ### Reception -/

/-- A delimiter completed now is taken: RON and LOCK high, the part listens, no frame is being taken, and a delivery
buffer is left (R106, R142). -/
def State.takesDelimiter (s : State) : Bool :=
  !s.held && s.ron && s.link.lock && s.fe.listening && s.fe.rx.isNone
    && decide (s.fe.delivery.length < Config.deliveryRoom)

/-- Φa and the level are sampled and the frame is taken, or it starts none (R106). DESIGN CHOICE
(notes/assumptions/43.md): the frame's slot, whose DOWN grant R140 tests, is the one begun at the last slot-start event,
also after a realign or a backward step. -/
def State.sampleDelimiter (s : State) (level : Byte) : State :=
  if s.takesDelimiter then
    { s with fe := { s.fe with
        rx := some { phi := s.timer.phi, level := level.toNat, down := s.fe.down, wrapped := false } } }
  else s

/-- START_DELIMITER (R106). -/
def execStartDelimiter (n : Nat) (level : Byte) (s : State) : Host.Outcome State Fault Refusal :=
  done ((ticks n s).sampleDelimiter level)

/-- The frame taken from FRX has ended. -/
def State.endReception (s : State) : State := { s with fe := { s.fe with rx := none } }

/-- The beacon belongs to the cycle that the next cycle-start event begins: Φa lay in slots 32 to 63 and the cycle has
not turned since (R112, R115). DESIGN CHOICE (notes/assumptions/37.md): so too when the beacon itself coarse-aligns or
realigns the phase, which R115, R98 and R99 leave open, and when it is sampled between a backward step over the wrap and the
wrap that is then suppressed, where R93 and R115 leave open which event ends the cycle of Φa. -/
def Reception.late (r : Reception) : Bool := decide (32 ≤ slotOf r.phi) && !r.wrapped

/-- What a role's kept beacon holds: its flags, and the grant entries for this car and the DOWN entries for car 0
(R112). -/
def State.keptOf (s : State) (r : Reception) (b : Beacon) : Kept :=
  { accepting := b.accepting, closing := b.closing, late := r.late
    grants := b.grants.filter fun g =>
      decide (g.car = s.link.car) || (decide (g.kind = .down) && decide (g.car = 0)) }

/-- A good beacon: the Link Controller, the acknowledgements, then the Cycle Timer (R95, R111 to R113, R133, R138). DESIGN
CHOICE (notes/assumptions/42.md): the ack entries are matched before the Cycle Timer's step, which may bring the
beacon-phase end; R133 names no order of the two, R69 and R139 allow both. -/
def State.takeBeacon (s : State) (r : Reception) (b : Beacon) : State :=
  let s1 := s.scoreBeacon b.node b.phase r.level b.accepting b.closing r.late
  let s2 := s1.keepBeacon b.node (s1.keptOf r b)
  (s2.matchAcks b.node b.acks).timeBeacon b.node b.phase b.cycle r.phi

/-- The beacon brings the large-error run count to 3 (R98). -/
def State.realignsNow (s : State) (r : Reception) (b : Beacon) : Bool :=
  decide (s.reference = some b.node) && decide (3 ≤ s.timer.run + 1)
    && largeErr (errorTicks (expectedPhase s.params.lam b.phase) r.phi)

/-- BEACON (R111). -/
def execBeacon (bytes : List Byte) (s : State) : Host.Outcome State Fault Refusal :=
  done (match s.fe.rx, classify bytes with
    | some r, .beacon b => s.endReception.takeBeacon r b
    | _, _ => s)

/-- REALIGN (R98): the beacon that brings the run count to 3. -/
def execRealign (bytes : List Byte) (s : State) : Host.Outcome State Fault Refusal :=
  done (match s.fe.rx, classify bytes with
    | some r, .beacon b => if s.realignsNow r b then s.endReception.takeBeacon r b else s
    | _, _ => s)

/-- DOWNLINK_FRAME (R140). -/
def execDownlinkFrame (bytes : List Byte) (s : State) : Host.Outcome State Fault Refusal :=
  done (match s.fe.rx, classify bytes with
    | some r, .downlink d => s.endReception.takeDownlink r d
    | _, _ => s)

/-- BAD_CRC_FRAME (R133, R179). -/
def execBadCrcFrame (bytes : List Byte) (s : State) : Host.Outcome State Fault Refusal :=
  done (match s.fe.rx, classify bytes with
    | some _, .bad => s.endReception.count .badCrc
    | _, _ => s)

/-- FOREIGN_FRAME (R133). -/
def execForeignFrame (bytes : List Byte) (s : State) : Host.Outcome State Fault Refusal :=
  done (match s.fe.rx, classify bytes with
    | some _, .foreign => s.endReception
    | _, _ => s)

/-! ### Transmission -/

/-- The first read that waits, with which the grant ends; a delivery record's grant in progress goes on (R136, R142). -/
def State.readHead (s : State) : State :=
  match s.fe.writing, s.fe.reads with
  | none, j :: rest => s.endGrant.readRecord j rest
  | _, _ => s

/-- RECORD_READ (R136). -/
def execRecordRead (s : State) : Host.Outcome State Fault Refusal :=
  done (
    match s.portFor .frame with
    | some t => t.readHead
    | none => s)

/-- What has gone out on FTX, from the start delimiter on (R104, R107). -/
def State.putFtx (s : State) (bytes : List Byte) : State :=
  { s with fe := { s.fe with ftx := airWord startDelimiter ++ bytes } }

/-- The frame is cut off before the record that is not read (R136). -/
def State.cutOff (s : State) : State :=
  match s.fe.tx with
  | some t => if s.frameReadsLeft then (s.putFtx t.body).releaseTx else s
  | none => s

/-- FRAME_CUT_OFF (R136). -/
def execFrameCutOff (s : State) : Host.Outcome State Fault Refusal :=
  done s.cutOff

/-- The frame is whole on FTX: its start delimiter, its body and its CRC (R104, R107, R132). -/
def State.sendWhole (s : State) (t : Transmission) : State := s.putFtx (t.body ++ airWord (crc16 t.body))

/-- TRANSMISSION_END (R107). -/
def execTransmissionEnd (s : State) : Host.Outcome State Fault Refusal :=
  done (match s.fe.tx with
    | some t => if s.frameReadsLeft then s else (s.sendWhole t).releaseTx
    | none => s)

/-! ### Delivery -/

/-- The grant of a record ends when the record is done with (R37, R76). -/
def State.endIfDone (s : State) : State := if s.fe.writing.isSome then s else s.endGrant

/-- The head record under the Frame Engine's grant, after the reads of a frame being sent: begun, and its first moves taken
(R76, R136, R142). -/
def State.deliverTo (s : State) (moves : Nat) (n : WinNo) (d : Delivery) : State :=
  match s.portFor .frame with
  | some t => if t.frameReadsLeft then s else (recordMoves moves (t.beginRecord n d)).endIfDone
  | none => s

/-- The head record is handed over: discarded without a grant when no LIVE SUBSCRIBE window has its topic, else under a
grant (R76, R142). -/
def State.deliver (s : State) (moves : Nat) (d : Delivery) : State :=
  match s.subscriber d.topic with
  | none => s.discardRecord
  | some n => s.deliverTo moves n d

/-- DELIVERY_RECORD (R76, R142). -/
def execDeliveryRecord (moves : Nat) (s : State) : Host.Outcome State Fault Refusal :=
  done (
    if s.fe.writing.isSome then (recordMoves moves s).endIfDone
    else
      match s.headDelivery with
      | some d => s.deliver moves d
      | none => s)

/-! ### LOCK -/

/-- The auto-join flag (R169). -/
def State.setAutoJoin (s : State) (b : Bool) : State := { s with link := { s.link with autoJoin := b } }

/-- A rise of LOCK ends STARTING; a JOIN in progress completes DONE and sets the auto-join flag (R118, R157, R169). -/
def State.lockUp (s : State) : State :=
  let s1 := s.toSearch
  if s1.mbox.work = .join then (s1.setAutoJoin true).complete .ok [] else s1

/-- LOCK is sampled high (R105). -/
def State.lockHigh (s : State) : State := { s with link := { s.link with lock := true } }

/-- LOCK_RISE (R105, R118). -/
def execLockRise (s : State) : Host.Outcome State Fault Refusal :=
  done (
    if s.ron && !s.link.lock then
      let s1 := s.lockHigh
      if s.link.state = .starting then s1.lockUp else s1
    else s)

/-- LOCK_FALL (R64, R105, R107, R119): the reads of the frame being sent end, TXK is released and a frame being received
abandoned, then the link change. -/
def execLockFall (s : State) : Host.Outcome State Fault Refusal :=
  done (
    if s.ron && s.link.lock && decide (s.link.state ≠ .starting) then
      s.abandonReads.releaseTx.endReception.lockLost
    else s)

end Sys2Proof.Machine
end

