-- ==== Sys2Proof/Machine/Dispatch.lean ====
section
/-! DEFINITION. What each command does, one arm for each row of the table. -/

namespace Sys2Proof.Machine

def exec (i : Instr) (s : State) : Host.Outcome State Fault Refusal :=
  match i with
  | .powerOn => Sys2Proof.Machine.execPowerOn s
  | .resetAssert => Sys2Proof.Machine.execResetAssert s
  | .bypassAssert => Sys2Proof.Machine.execBypassAssert s
  | .bypassRelease st => Sys2Proof.Machine.execBypassRelease st s
  | .resetRelease st => Sys2Proof.Machine.execResetRelease st s
  | .poolTestEnd failed => Sys2Proof.Machine.execPoolTestEnd failed s
  | .cPortWrite c => Sys2Proof.Machine.execCPortWrite c s
  | .cPortRead c => Sys2Proof.Machine.execCPortRead c s
  | .drainStep => Sys2Proof.Machine.execDrainStep s
  | .unknownCommand => Sys2Proof.Machine.execUnknownCommand s
  | .setw => Sys2Proof.Machine.execSetw s
  | .enbw => Sys2Proof.Machine.execEnbw s
  | .disw => Sys2Proof.Machine.execDisw s
  | .delw => Sys2Proof.Machine.execDelw s
  | .qryw => Sys2Proof.Machine.execQryw s
  | .push => Sys2Proof.Machine.execPush s
  | .peek => Sys2Proof.Machine.execPeek s
  | .setid => Sys2Proof.Machine.execSetid s
  | .join => Sys2Proof.Machine.execJoin s
  | .leave => Sys2Proof.Machine.execLeave s
  | .hold => Sys2Proof.Machine.execHold s
  | .resume => Sys2Proof.Machine.execResume s
  | .nbrs => Sys2Proof.Machine.execNbrs s
  | .cntr => Sys2Proof.Machine.execCntr s
  | .alrt => Sys2Proof.Machine.execAlrt s
  | .psav => Sys2Proof.Machine.execPsav s
  | .plod => Sys2Proof.Machine.execPlod s
  | .testMinor1 => Sys2Proof.Machine.execTestMinor1 s
  | .testMinor2 => Sys2Proof.Machine.execTestMinor2 s
  | .rset => Sys2Proof.Machine.execRset s
  | .granuleClear => Sys2Proof.Machine.execGranuleClear s
  | .peekGranuleRead => Sys2Proof.Machine.execPeekGranuleRead s
  | .poolTestOperation good => Sys2Proof.Machine.execPoolTestOperation good s
  | .profileWriteEnd readBack => Sys2Proof.Machine.execProfileWriteEnd readBack s
  | .profileWriteTimeout => Sys2Proof.Machine.execProfileWriteTimeout s
  | .slotStart => Sys2Proof.Machine.execSlotStart s
  | .neighbourDrop node => Sys2Proof.Machine.execNeighbourDrop node s
  | .holdoverExpiry => Sys2Proof.Machine.execHoldoverExpiry s
  | .joinUnanswered => Sys2Proof.Machine.execJoinUnanswered s
  | .joinWaitExpiry => Sys2Proof.Machine.execJoinWaitExpiry s
  | .frameLost => Sys2Proof.Machine.execFrameLost s
  | .recordRead => Sys2Proof.Machine.execRecordRead s
  | .frameCutOff => Sys2Proof.Machine.execFrameCutOff s
  | .transmissionEnd => Sys2Proof.Machine.execTransmissionEnd s
  | .cycleStart => Sys2Proof.Machine.execCycleStart s
  | .suppressedWrap => Sys2Proof.Machine.execSuppressedWrap s
  | .refresh win => Sys2Proof.Machine.execRefresh win s
  | .ageOut => Sys2Proof.Machine.execAgeOut s
  | .windowExpiry win => Sys2Proof.Machine.execWindowExpiry win s
  | .refillExpiry win => Sys2Proof.Machine.execRefillExpiry win s
  | .stagingLimit group => Sys2Proof.Machine.execStagingLimit group s
  | .autoClear => Sys2Proof.Machine.execAutoClear s
  | .beacon bytes => Sys2Proof.Machine.execBeacon bytes s
  | .realign bytes => Sys2Proof.Machine.execRealign bytes s
  | .downlinkFrame bytes => Sys2Proof.Machine.execDownlinkFrame bytes s
  | .badCrcFrame bytes => Sys2Proof.Machine.execBadCrcFrame bytes s
  | .foreignFrame bytes => Sys2Proof.Machine.execForeignFrame bytes s
  | .deliveryRecord moves => Sys2Proof.Machine.execDeliveryRecord moves s
  | .lockRise => Sys2Proof.Machine.execLockRise s
  | .lockFall => Sys2Proof.Machine.execLockFall s
  | .startingTimeout => Sys2Proof.Machine.execStartingTimeout s
  | .endOfStartUp => Sys2Proof.Machine.execEndOfStartUp s
  | .startDelimiter ticks level => Sys2Proof.Machine.execStartDelimiter ticks level s

end Sys2Proof.Machine
end

