-- ==== Sys2Proof/Safety.lean ====
section
/-! DEFINITION. What the spec says holds of the part at every moment, as predicates on the state. Machine/State.lean is
plain data, so these laws are stated here and proved to be kept by every step. -/

namespace Sys2Proof.Machine

/-- The Capture FIFO never holds more than 64 entries, the peak is never below the occupancy, and the loss set is not
empty only while the FIFO is full (R14, R16). -/
def TapLaw (s : State) : Prop :=
  s.tap.fifo.length ≤ 64 ∧ s.tap.fifo.length ≤ s.tap.peak ∧ s.tap.peak ≤ 64 ∧
    (s.tap.loss ≠ 0 → s.tap.fifo.length = 64)

/-- The store's memory is canonical, when it is not torn. -/
def Store.wf : Store → Bool
  | .holds m => Memory.wf Config.storeDefault m
  | .torn => true

/-- The three memories are in canonical form: the image pool (R26), the window 0 image (R21), the Profile Store
(R169). -/
def MemoryLaw (s : State) : Prop :=
  Memory.wf Config.imageDefault s.pool.mem = true ∧ Memory.wf Config.imageDefault s.win0.mem = true ∧
    s.store.wf = true

/-- The trim lies in -128 to 127 (R91). -/
def TrimLaw (s : State) : Prop := -128 ≤ s.timer.trim ∧ s.timer.trim ≤ 127

/-- An entry names a run of 1 to 14 granules (R57, R58). -/
def Entry.runOk (e : Entry) : Prop := e.first ≤ e.last ∧ e.last ≤ e.first + 13

/-- At most 48 entries, each of 1 to 14 granules, in class order (R57, R58). -/
def EntriesLaw (l : List Entry) : Prop :=
  l.length ≤ 48 ∧ (∀ e ∈ l, e.runOk) ∧ l.Pairwise fun a b => a.cls ≤ b.cls

/-- The journal holds at most 48 entries, each of 1 to 14 granules, and the list is in class order (R57, R58). -/
def JournalLaw (s : State) : Prop := EntriesLaw s.journal.entries

/-- At most 12 entries, each of its own node (R109). -/
def NodesLaw (t : List Neighbour) : Prop := t.length ≤ 12 ∧ (t.map Neighbour.node).Nodup

/-- The neighbour table has at most 12 entries, each of its own node (R109). -/
def NeighbourLaw (s : State) : Prop := NodesLaw s.link.table

/-- At most 32 sent-frame records, 16 uplink frames in a cycle, and two frames for delivery, the one being taken from
the port counted with them (R134, R137, R142). -/
def FramesLaw (f : FrameEngine) : Prop :=
  f.sent.length ≤ 32 ∧ f.sentInCycle ≤ 16 ∧ f.delivery.length + (if f.rx.isSome then 1 else 0) ≤ 2

/-- The sent-frame list holds at most 32 records, a cycle at most 16 uplink frames, and the part at most two frames for
delivery (R134, R137, R142). -/
def FrameLaw (s : State) : Prop := FramesLaw s.fe

/-- The granules that places 1 to 31 hold. -/
def State.heldGranules (s : State) : List Nat := places1to31.flatMap s.heldBy

/-- Place 0 holds no definition, window 0 being fixed (R21), and until start-up ends no place does (R36). -/
def TableLaw (s : State) : Prop := s.win 0 = none ∧ (s.running = false → ∀ n, s.win n = none)

/-- Two definitions cover no byte in common (R24). -/
def Definition.apart (a b : Definition) : Prop := a.base + a.length ≤ b.base ∨ b.base + b.length ≤ a.base

/-- Two definitions that may not stand together: the same topic in the same kind, or two of kind STATUS (R23). -/
def DefBody.clashes : DefBody → DefBody → Bool
  | .publish a, .publish b => a.topic == b.topic
  | .subscribe a, .subscribe b => a.topic == b.topic
  | .status, .status => true
  | _, _ => false

/-- A definition's range: whole granules, 1 to 256 of them, inside the address space and off window 0 (R22 to R24). -/
def Definition.rangeOk (mb : BitVec 4) (d : Definition) : Prop :=
  d.base % 16 = 0 ∧ d.length % 16 = 0 ∧ 16 ≤ d.length ∧ d.length ≤ 4096 ∧ d.base + d.length ≤ 0x1000000 ∧
    (d.base + d.length ≤ win0Base mb ∨ win0Base mb + 256 ≤ d.base)

/-- The ranges of all defined windows, window 0 included, are disjoint, no topic is defined twice in a kind, and at most
one window is of kind STATUS (R23, R24). -/
def WindowsLaw (s : State) : Prop :=
  ∀ n w, s.win n = some w → w.defn.rangeOk s.straps.mb ∧
    ∀ m v, m ≠ n → s.win m = some v → w.defn.apart v.defn ∧ w.defn.body.clashes v.defn.body = false

/-- Each granule of a usable pool is on the free list or held by exactly one window for one image; an unusable pool
holds none (R26, R29). -/
def PoolLaw (s : State) : Prop :=
  (s.pool.free ++ s.heldGranules).Perm (if s.pool.usable then List.range Config.poolGranules else [])

/-- The maps and flags of a window are as long as its definition makes them (R26, R28). -/
structure Window.Shaped (w : Window) : Prop where
  mapA : w.mapA.length = if w.isStatus then 0 else w.granules
  maps : w.mapA.length + w.mapB.length = w.defn.cost
  known : w.pub.known.length = if w.isPublish then w.defn.length else 0
  states : w.pub.states.length = if w.isPublish then w.granules else 0
  dirty : w.pub.dirty.length = if w.isPublish ∧ w.mode? ≠ some .onWrite then w.granules else 0
  filled : w.pub.filled.length = w.pub.dirty.length
  present : w.ov.present.length = if w.sub?.isSome then w.granules else 0
  staged : w.ov.staged.length = w.ov.present.length

/-- Every image's map holds the window's granule count, and the flags of each image are per byte or per granule as its kind
says (R26). -/
def ShapeLaw (s : State) : Prop := ∀ n w, s.win n = some w → w.Shaped

/-- An entry names a granule of a window (R57). -/
abbrev Entry.Covers (e : Entry) (n : WinNo) (g : Nat) : Prop := e.win = n ∧ e.first ≤ g ∧ g ≤ e.last

/-- A best-effort record still to be read holds the granules of a window that was not purged (R64). -/
abbrev ReadJob.Covers (j : ReadJob) (n : WinNo) (g : Nat) : Prop :=
  j.bestEffort = true ∧ j.purged = false ∧ j.win = n ∧ j.first ≤ g ∧ g ≤ j.last

/-- No two entries, no two best-effort reads, and no entry and read cover the same granule (R58). -/
def CoverOnce (l : List Entry) (reads : List ReadJob) : Prop :=
  l.Pairwise (fun a b => ∀ n g, a.Covers n g → ¬ b.Covers n g) ∧
    reads.Pairwise (fun a b => ∀ n g, a.Covers n g → ¬ b.Covers n g) ∧
    ∀ e ∈ l, ∀ j ∈ reads, ∀ n g, e.Covers n g → ¬ j.Covers n g

/-- The window is LIVE or CLOSING, of kind PUBLISH, and has this granule (R57, R64). -/
def Window.sends (w : Window) (g : Nat) : Prop :=
  (w.state = .live ∨ w.state = .closing) ∧ w.isPublish = true ∧ g < w.pub.states.length

/-- The coverage law: a granule is covered once at most and has the state of its entry; one that awaits its best-effort read
is in flight, and one that nothing covers is IDLE or WANTED (R58, R64). -/
def CoverLaw (s : State) : Prop :=
  CoverOnce s.journal.entries s.fe.reads ∧
    (∀ e ∈ s.journal.entries, ∃ w, s.win e.win = some w ∧ w.sends e.last ∧ ∀ g, e.first ≤ g → g ≤ e.last →
      if e.seq = none then w.granState g = .waiting else w.granState g = .inFlight ∨ w.granState g = .inFlightAgain) ∧
    (∀ j ∈ s.fe.reads, j.bestEffort = true → j.purged = false → ∃ w, s.win j.win = some w ∧ w.sends j.last ∧
      ∀ g, j.first ≤ g → g ≤ j.last → w.granState g = .inFlight ∨ w.granState g = .inFlightAgain) ∧
    ∀ n w g, s.win n = some w → (∀ e ∈ s.journal.entries, ¬ e.Covers n g) → (∀ j ∈ s.fe.reads, ¬ j.Covers n g) →
      w.granState g = .idle ∨ w.granState g = .wanted

/-- Every IN_FLIGHT entry is carried by exactly one sent-frame record, that of its sequence, and every entry a record carries
is IN_FLIGHT (R63). -/
def CarryLaw (s : State) : Prop :=
  (s.fe.sent.flatMap SentFrame.carried).Nodup ∧
    (∀ e ∈ s.journal.entries, ∀ q, e.seq = some q → ∃ f ∈ s.fe.sent, f.seq = q ∧ (e.win, e.first) ∈ f.carried) ∧
    ∀ f ∈ s.fe.sent, ∀ k ∈ f.carried, ∃ e ∈ s.journal.entries, (e.win, e.first) = k ∧ e.seq = some f.seq

/-- One entry is SERVING exactly in SERVED and HANDOFF, and one is TARGET exactly in JOINING and HANDOFF (R109). -/
def RoleLaw (s : State) : Prop :=
  s.link.table.countP (fun e => e.role == .serving) =
      (match s.link.state with | .served | .handoff => 1 | .off | .starting | .search | .joining => 0) ∧
    s.link.table.countP (fun e => e.role == .target) =
      (match s.link.state with | .joining | .handoff => 1 | .off | .starting | .search | .served => 0)

/-- Until start-up ends the link is OFF and no command is in progress (R118, R145, R173). -/
def StartLaw (s : State) : Prop := s.running = false → s.link.state = .off ∧ s.mbox.work = .none

/-- The granules that SETW or PLOD still has to clear belong to IDLE windows (R28, R153, R171). -/
def ClearLaw (s : State) : Prop :=
  ∀ items data, s.mbox.work = .clearing items data → ∀ c ∈ items, ∀ w, s.win c.win = some w → w.state = .idle

/-! ### Words the obligations are stated in -/

/-- A write cycle is capturable for a window: a lane is enabled, the part is released, and its address falls in window
0, a LIVE PUBLISH window, or the alert-clear word of a LIVE STATUS window (R12, R20). -/
def Capturable (s : State) (c : BusCycle) (n : WinNo) : Prop :=
  s.held = false ∧ (c.low = true ∨ c.high = true) ∧ ∃ k, s.matchAddr (2 * c.addr.toNat) = some (n, k) ∧
    (n = 0 ∨ ∃ w, s.win n = some w ∧ w.state = .live ∧ (w.isPublish = true ∨ (w.isStatus = true ∧ k = 0x30)))

/-- The cycle falls, at an offset, in a LIVE window of places 1 to 31, and the part is released (R4). -/
def Falls (s : State) (c : BusCycle) (n : WinNo) (w : Window) (offset : Nat) : Prop :=
  s.held = false ∧ n ≠ 0 ∧ s.matchAddr (2 * c.addr.toNat) = some (n, offset) ∧ s.win n = some w ∧ w.state = .live

/-- A read of the cycle's address returns these two bytes on the lanes it enables and memory on the others; a
substituted lane has good parity with PAREN high and the memory's parity pin with PAREN low, and nothing else of the
part changes (R3, R6). -/
def ReadReturns (s : State) (c : BusCycle) (low high : Byte) : Prop :=
  ∃ b, exec (.cPortRead c) s = .next (State.arbitrate { s with bus := some b }) ∧ b.write = false ∧ b.cycle = c ∧
    lowByte b.cData = (if c.low then low else lowByte c.data) ∧
    highByte b.cData = (if c.high then high else highByte c.data) ∧
    (c.low = true → s.straps.paren = true → laneGood s.straps low b.cParLow = true) ∧
    (c.high = true → s.straps.paren = true → laneGood s.straps high b.cParHigh = true) ∧
    (c.low = false ∨ s.straps.paren = false → b.cParLow = c.parLow) ∧
    (c.high = false ∨ s.straps.paren = false → b.cParHigh = c.parHigh)

/-- The low and the high byte of the status record's word at an even offset (R162, R163, R177, R180). -/
def State.recordAt (s : State) (offset : Nat) : Byte × Byte :=
  let b := fun n : Nat => BitVec.ofNat 8 n
  let flag := fun x : Bool => if x then 1#8 else 0#8
  let count := fun p : Window → Bool =>
    b ((List.finRange 32).countP fun n : WinNo => decide (n ≠ 0) && (s.win n).any fun w => decide (w.state = .live) && p w)
  let holder := fun r : Role => s.link.table.find? fun e => decide (e.role = r)
  let word := fun n : Nat => (b n, b (n / 256))
  match offset with
  | 0x00 => (1, match s.link.state with
      | .off => 0 | .starting => 1 | .search => 2 | .joining => 3 | .served => 4 | .handoff => 5)
  | 0x02 => (match s.timer.timing with | .free => 0 | .locked => 1 | .holdover => 2,
      if s.pool.usable then match s.status.store with | .valid => 1 | .absent => 2 | .invalid => 3 else 4)
  | 0x04 => match holder .serving with | some e => (b e.node, b e.score) | none => (0, 0)
  | 0x06 => match holder .target with | some e => (b e.node, 0) | none => (0, 0)
  | 0x08 => match s.link.best with | some (node, score) => (b node, b score) | none => (0, 0)
  | 0x0A => word s.timer.cycle.toNat
  | 0x0C => (b s.link.car, flag s.journal.hold)
  | 0x0E => (BitVec.ofInt 8 s.timer.trim, 0)
  | 0x10 => (b s.journal.entries.length, b s.tap.fifo.length)
  | 0x12 => (b s.tap.peak, count fun _ => true)
  | 0x14 => (count fun w => w.sub?.isSome && decide (w.ov.state = .expired),
      count fun w => w.isPublish && w.pub.known.contains false)
  | 0x16 => word s.status.counters[6].toNat
  | 0x18 => word s.status.counters[7].toNat
  | 0x1A => word s.status.counters[13].toNat
  | 0x30 => word s.status.pending.toNat
  | 0x32 => word s.status.record.toNat
  | 0x34 => word s.status.signal.toNat
  | _ => (0, 0)

/-- The byte that stands for a result code (R149). -/
def ResultCode.byte (r : ResultCode) : Byte :=
  match r with
  | .ok => 0x00 | .unknownCommand => 0x01 | .badParam => 0x02 | .windowState => 0x03 | .noRoom => 0x04
  | .overlap => 0x05 | .topicInUse => 0x06 | .linkState => 0x07 | .noIdentity => 0x08 | .parity => 0x09
  | .captureLost => 0x0A | .profileInvalid => 0x0B | .profileWrite => 0x0C | .testFailed => 0x0D
  | .radioFault => 0x0E | .imageFault => 0x0F

/-- The byte of the response block at an offset of window 0 from 0x80 on (R174, R180). -/
def Response.byteAt (r : Response) (offset : Nat) : Byte :=
  match offset with
  | 0x80 => r.result.byte
  | 0x81 => (if r.overrun then 1 else 0) ||| (if r.lostWrite then 2 else 0)
  | 0x82 => lowByte r.echo
  | 0x83 => highByte r.echo
  | 0x84 => lowByte r.prevCommand
  | 0x85 => highByte r.prevCommand
  | 0x86 => r.prevResult.byte
  | 0x87 => 0
  | 0x88 => BitVec.ofNat 8 r.data.length
  | 0x89 => BitVec.ofNat 8 (r.data.length / 256)
  | 0x8A => 0
  | 0x8B => 0
  | k => r.data.getD (k - 0x8C) 0

/-- What the C-port returns when a read passes: the memory's data and parity (R3). -/
def memoryPins (c : BusCycle) : BusPins :=
  { write := false, cycle := c, cData := c.data, cParLow := c.parLow, cParHigh := c.parHigh }

/-- What steps of the journal may change: the entries, the publication states and the backlog flags of windows, the
counters and the pending alerts. Everything else stays, images and their other flags among it (R52 to R70). -/
structure JournalOnly (s t : State) : Prop where
  rest : t = { s with places := t.places, journal := t.journal, status := t.status }
  hold : t.journal.hold = s.journal.hold
  status : t.status = { s.status with pending := t.status.pending, counters := t.status.counters }
  free : ∀ n, s.win n = none → t.win n = none
  kept : ∀ n v, s.win n = some v → ∃ states backlog, states.length = v.pub.states.length ∧
    t.win n = some { v with pub := { v.pub with states := states, backlog := backlog } }

/-- A WAITING entry of window `n` with a span of 13 or less (R59). -/
def Extendable (n : WinNo) (e : Entry) : Prop := e.seq = none ∧ e.win = n ∧ e.last < e.first + 13

/-- The lower neighbour of granule `g` of window `n` (R59). -/
def LowerOf (n : WinNo) (g : Nat) (e : Entry) : Prop := Extendable n e ∧ e.last + 1 = g

/-- The upper neighbour of granule `g` of window `n` (R59). -/
def UpperOf (n : WinNo) (g : Nat) (e : Entry) : Prop := Extendable n e ∧ e.first = g + 1

/-- The granule's request is taken: it is WAITING, these are the entries, and counter `c` has gone up by `k` (R59, R60). -/
def State.queued (s : State) (n : WinNo) (w : Window) (g : Nat) (entries : List Entry) (c : Fin 24) (k : BitVec 32) : State :=
  { s with
    places := s.places.set n (some (w.setGran g .waiting))
    journal := { s.journal with entries := entries }
    status := { s.status with counters := s.status.counters.set c (s.status.counters[c] + k) } }

/-- The granule is WANTED and fully known in a LIVE window, so that it is to be offered to the journal (R53, R61). -/
def Offerable (s : State) (n : WinNo) (g : Nat) : Prop :=
  ∃ w, s.win n = some w ∧ w.state = .live ∧ w.granState g = .wanted ∧ w.fullyKnown g = true

/-- A backlog scan under way: the state, whether a merge has freed a place in it, whether a refusal came after that, and
whether an offer of the window visited was refused (R61). -/
structure Scanning where
  state : State
  freed : Bool
  again : Bool
  refused : Bool

/-- The scan has made this offer (R59 to R61). -/
def Scanning.offered (a : Scanning) (n : WinNo) (g : Nat) : Scanning :=
  let o := a.state.offer n g
  { state := o.1, freed := a.freed || decide (o.2 = .merged), again := a.again || a.freed && decide (o.2 = .refused)
    refused := a.refused || decide (o.2 = .refused) }

/-- The visit of a window ends: its backlog flag is cleared if no offer was refused (R61). -/
def Scanning.leaves (a : Scanning) (n : WinNo) : Scanning :=
  if a.refused then a
  else { a with state := { a.state with places := a.state.places.set n ((a.state.win n).map fun w =>
    { w with pub := { w.pub with backlog := false } }) } }

/-- The scan goes through these granules of a window and offers each that is to be offered when its turn comes; a refusal does
not end it (R61). -/
inductive Offers (n : WinNo) : List Nat → Scanning → Scanning → Prop
  | done (a : Scanning) : Offers n [] a a
  | passes {g : Nat} {gs : List Nat} {a b : Scanning} :
      ¬ Offerable a.state n g → Offers n gs a b → Offers n (g :: gs) a b
  | offers {g : Nat} {gs : List Nat} {a b : Scanning} :
      Offerable a.state n g → Offers n gs (a.offered n g) b → Offers n (g :: gs) a b

/-- The window is LIVE with its backlog flag set (R61). -/
def Backlogged (s : State) (n : WinNo) (w : Window) : Prop :=
  s.win n = some w ∧ w.state = .live ∧ w.pub.backlog = true

/-- One scan visits the LIVE, backlogged windows of these places in their order, and no other, and goes through each one's
granules in ascending order (R61). -/
inductive Visits : List WinNo → Scanning → Scanning → Prop
  | done (a : Scanning) : Visits [] a a
  | passes {n : WinNo} {ns : List WinNo} {a b : Scanning} :
      (∀ w, ¬ Backlogged a.state n w) → Visits ns a b → Visits (n :: ns) a b
  | visits {n : WinNo} {ns : List WinNo} {a b c : Scanning} {w : Window} :
      Backlogged a.state n w → Offers n (List.range (w.defn.length / 16)) { a with refused := false } c →
      Visits ns (c.leaves n) b → Visits (n :: ns) a b

/-- The backlog scan of the journal: places 1 to 31 in ascending number, and once more after a scan in which a refusal came
after a merge had freed a place (R61). -/
inductive ScansTo : State → State → Prop
  | last {s : State} {b : Scanning} :
      Visits ((List.finRange 32).filter (· ≠ 0)) ⟨s, false, false, false⟩ b → b.again = false → ScansTo s b.state
  | again {s t : State} {b : Scanning} :
      Visits ((List.finRange 32).filter (· ≠ 0)) ⟨s, false, false, false⟩ b → b.again = true → ScansTo b.state t →
      ScansTo s t

/-- A drain step is in progress that took no learning request and this head entry, which has `rest` behind it in the FIFO
now (R39). -/
def Draining (s : State) (e : FifoEntry) (rest : List FifoEntry) : Prop :=
  s.port = some (.drain { learn := none, entry := true }) ∧ s.tap.fifo = e :: rest

/-- The FIFO after the head has left: a LOSS entry with the whole loss set fills the place when the set is not empty
(R17). -/
def State.fifoAfter (s : State) (rest : List FifoEntry) : List FifoEntry :=
  rest ++ if s.tap.loss = 0 then [] else [.loss s.tap.loss]

/-- Every entry fence above 0 goes down by 1 (R41). -/
def State.fencesDown (s : State) : Vector (Option Window) 32 :=
  s.places.map fun o => o.map fun w => { w with fence := w.fence - 1 }

/-- The head entry, applied, has left the FIFO: the fences go down, and a waiting loss set fills the place as a LOSS entry
(R17, R39, R41). -/
structure EntryLeaves (s t : State) (rest : List FifoEntry) : Prop where
  same : t = { s with places := s.fencesDown, tap := t.tap, status := t.status }
  fifo : t.tap.fifo = s.fifoAfter rest
  learn : t.tap.learn = s.tap.learn
  loss : t.tap.loss = 0
  plain : s.tap.loss = 0 → t.tap = { s.tap with fifo := rest } ∧ t.status = s.status
  counters : ∀ c, c ≠ .lossEntries → t.counter c = s.counter c

/-- Every window but this one is as it was, but for what the journal moves in it and its entry fence, lower by `drop`
(R41, R52 to R70). -/
def OthersKept (s t : State) (n : WinNo) (drop : Nat) : Prop :=
  ∀ m, m ≠ n → (s.win m = none → t.win m = none) ∧ ∀ w, s.win m = some w → ∃ states backlog,
    t.win m = some { w with fence := w.fence - drop, pub := { w.pub with states := states, backlog := backlog } }

/-! ### The shared port -/

/-- A requester waits for the port or, the Drain Engine apart, has work under its grant: an entry or a learning request to drain; a record to read, a
record being written or one to deliver; a snapshot, a granule to clear, to read for PEEK or to test (R37). -/
def Waits (s : State) : Requester → Prop
  | .drain => s.held = false ∧ s.rst.phase = .running ∧ (s.tap.fifo ≠ [] ∨ s.tap.learn ≠ none)
  | .frame => s.held = false ∧ s.rst.phase = .running ∧
      (s.fe.reads ≠ [] ∨ s.fe.writing ≠ none ∨ ∃ d ds fs, s.fe.delivery = (d :: ds) :: fs ∧
        ∃ n w x, n ≠ 0 ∧ s.win n = some w ∧ w.state = .live ∧ w.defn.body = .subscribe x ∧ x.topic = d.topic)
  | .mailbox => s.held = false ∧ s.rst.phase = .running ∧
      (s.mbox.work = .snapshot ∨ (∃ items data, s.mbox.work = .clearing items data) ∨ (∃ j, s.mbox.work = .peek j) ∨
        ∃ j, s.mbox.work = .poolTest j)

/-- A grant in progress has work for it: a drain step the learning request or the entry that it took, each other grant what
its requester waits for (R37, R39). -/
def HasWork (s : State) : PortGrant → Prop
  | .drain d => s.held = false ∧ s.rst.phase = .running ∧ (d.learn ≠ none ∨ d.entry = true ∧ s.tap.fifo ≠ [])
  | .frame => Waits s .frame
  | .mailbox => Waits s .mailbox

/-- The port serves a grant that has work for it, that of the requester granted last, and is free only while nobody waits;
an entry that a drain step took stays in the FIFO while the step is in progress (R14, R37 to R39). -/
def PortLaw (s : State) : Prop :=
  (∀ g, s.port = some g → HasWork s g ∧ s.arbiter = g.requester) ∧ (s.port = none → ∀ r, ¬ Waits s r) ∧
    ∀ d, s.port = some (.drain d) → d.entry = true → s.tap.fifo ≠ []

/-! ### Resets -/

/-- What every reset kind leaves: the places free and their granules on the free list, the blocks at their reset values, no
frame, no read and no share of an event, RON and TXK released, the port free, the bus path, the straps and their pins, the window
0 image and the pool's bytes as they were. A store that PSAV was writing is as it was, torn, or whole (R20, R36, R38, R72, R90,
R108, R131, R144, R145, R168, R170). The values that no rule gives are the model's choices: the parameters, car number, auto-join
flag, shift register and store condition before start-up (notes/assumptions/5.md); LOCK, listening, DOWN grant, command code,
snapshot and response block (notes/assumptions/3.md); FTX's record (notes/assumptions/6.md); the order of the granules freed
(notes/assumptions/39.md). -/
structure AtReset (s t : State) (kind : ResetKind) : Prop where
  kind : t.rst.kind = kind
  places : ∀ n, n ≠ 0 → t.win n = none
  free : t.pool.free = if t.rst.kind = .powerOn then List.range 2048 else s.pool.free ++ s.heldGranules
  due : t.due = []
  params : t.params = { f := 40, s := 2, w := 4, p := 24, d := 6, u := 64, hm := 20, k := 3, ls := 4, hl := 25, kp := 8
                        ki := 4, lam := 96 }
  tap : t.tap = { fifo := [], loss := 0, peak := 0, learn := none }
  arbiter : t.arbiter = .mailbox ∧ t.port = none
  journal : t.journal = { entries := [], hold := false }
  groups : ∀ g : Fin 8, t.groups[g] = { revision := none, staging := none, age := 0 }
  timer : t.timer = { phi := 0, trim := 0, cycle := 0, timing := .free, holdover := 0, run := 0, last := 0,
                      suppress := false, coarse := false, taken := false }
  link : t.link =
    { state := .off, table := [], grants := [], keptServing := none, keptTarget := none
      join := { tries := 0, wait := 0, due := none, sent := false, ends := 0 }, persist := 0, lastTested := none
      startCount := 0, prevNode := 0, leave := false, best := none, lfsr := 0x0101, autoJoin := false, car := 0
      lock := false }
  frames : t.fe =
    { nextSeq := 0, sentInCycle := 0, sent := [], rxBase := 0, rxMap := 0, ackPending := false, freshStart := true
      listening := false, down := none, rx := none, tx := none, ftx := [], reads := [], delivery := [], writing := none }
  mbox : t.mbox =
    { state := .ready, code := 0, work := .none, snapshot := [], overrun := false, lostWrite := false, prevCommand := 0
      prevResult := .ok, response :=
        { result := .ok, echo := 0, prevCommand := 0, prevResult := .ok, overrun := false, lostWrite := false, data := [] } }
  status : t.status =
    { pending := 0, record := 0, signal := 0, autoClear := false, served := 0, counters := Vector.replicate 24 0
      store := .absent }
  store : t.store = s.store ∨ ∃ profile, s.mbox.work = .psav profile ∧
    (t.store = .torn ∨ t.store = Store.ofBytes profile)
  pins : t.alertLow = false ∧ t.ron = false ∧ t.txk = false
  same : t.bus = s.bus ∧ t.straps = s.straps ∧ t.strapPins = s.strapPins ∧ t.win0 = s.win0 ∧ t.pool.mem = s.pool.mem ∧ t.pending = s.pending

/-! ### Mailbox commands -/

/-- The mailbox is BUSY with this command, and its snapshot is under way under the Mailbox Unit's grant (R38, R146). -/
def CommandDue (code : Word) (s : State) : Prop :=
  s.mbox.state = .busy ∧ s.mbox.code = code ∧ s.mbox.work = .snapshot ∧ s.port = some .mailbox

/-- Parameter words 1 to `k` hold no parity-bad flag in the window 0 image (R147). -/
def GoodParams (k : Nat) (s : State) : Prop := ∀ i, 1 ≤ i → i ≤ k → s.win0.bad.getD i false = false

/-- Parameter word `k` in the window 0 image as a number. -/
def State.word (s : State) (k : Nat) : Nat := (s.win0Word k).toNat

/-- The snapshot has been taken and its grant has ended: parameter words 1 to 63 with their flags, the flags of those words
cleared in the image; the command is at this work (R146). -/
def State.snapped (s : State) (work : Work) : State :=
  { s with
    port := none
    win0 := { s.win0 with bad := s.win0.bad.mapIdx fun i b => if 1 ≤ i ∧ i ≤ 63 then false else b }
    mbox := { s.mbox with
      snapshot := (List.range 63).map fun i => (s.win0Word (i + 1), s.win0.bad.getD (i + 1) false)
      work := work } }

/-- The command has completed: the response block, DONE or FAIL, and MAILBOX_DONE (R149). -/
def State.completed (s : State) (r : ResultCode) (data : List Byte) : State :=
  { s with
    mbox := { s.mbox with
      state := if r = .ok then .done else .fail
      work := .none
      response :=
        { result := r, echo := s.mbox.code, prevCommand := s.mbox.prevCommand, prevResult := s.mbox.prevResult
          overrun := s.mbox.overrun, lostWrite := s.mbox.lostWrite, data := data } }
    status := { s.status with pending := s.status.pending ||| (s.status.record &&& 0x800) } }

/-- The snapshot has been taken and the command has completed at the end of its grant (R146, R148, R149). -/
def State.answered (s : State) (r : ResultCode) (data : List Byte) : State := (s.snapped .none).completed r data

/-- A number in two bytes on the bus: low byte first (12). -/
def twoBytes (n : Nat) : List Byte := [BitVec.ofNat 8 n, BitVec.ofNat 8 (n / 256)]

/-- Some place 1 to 31 is PENDING, LIVE or CLOSING (R159, R160). -/
def State.someInUse (s : State) : Prop := ∃ n w, n ≠ 0 ∧ s.win n = some w ∧ w.state ≠ .idle

/-- Parameter words 1 to 16 of the window 0 image spell a definition for a place (R175). -/
def Spells (s : State) (n : WinNo) (d : Definition) : Prop :=
  s.word 1 = n.val ∧ s.word 3 + 0x10000 * s.word 4 = d.base ∧ s.word 5 = d.length ∧
    s.word 16 = (if d.startEnabled then 1 else 0) ∧
    match d.body with
    | .publish b =>
      s.word 2 = 1 ∧ s.word 6 = b.topic ∧ s.word 7 = b.cls ∧ s.word 10 = b.refresh ∧
        match b.mode with
        | .onWrite => s.word 8 = 0
        | .onTrigger k => s.word 8 = 1 ∧ s.word 9 = k
    | .subscribe b =>
      s.word 2 = 2 ∧ s.word 6 = b.topic ∧ s.word 11 = b.hold ∧ s.word 14 = (if b.releaseOnWrite then 1 else 0) ∧
        s.word 15 = b.group.val ∧
        match b.action with
        | .hold => s.word 12 = 0
        | .fallback w => s.word 12 = 1 ∧ s.win0Word 13 = w
        | .release => s.word 12 = 2
    | .status => s.word 2 = 3

/-- The kind's fields lie in their ranges (R22, R23 conditions 5, 7 and 8). -/
def Definition.fieldsOk (d : Definition) : Prop :=
  match d.body with
  | .publish b =>
    1 ≤ b.topic ∧ b.topic ≤ 1023 ∧ b.cls ≤ 3 ∧ b.refresh ≤ 255 ∧
      ∀ k, b.mode = .onTrigger k → k % 2 = 0 ∧ k < d.length
  | .subscribe b =>
    1 ≤ b.topic ∧ b.topic ≤ 1023 ∧ 1 ≤ b.hold ∧ b.hold ≤ 255 ∧ (b.releaseOnWrite = true → b.group.val = 0)
  | .status => d.length = 64

/-- Parameter word `k` of a SETW is a field of its kind, beside the topic, that lies outside its range (R22, R23 condition
8). -/
def State.fieldBad (s : State) (k : Nat) : Prop :=
  match s.word 2, k with
  | 1, 7 => 3 < s.word 7
  | 1, 8 => 1 < s.word 8
  | 1, 9 => s.word 8 = 1 ∧ (s.word 9 % 2 = 1 ∨ s.word 5 ≤ s.word 9)
  | 1, 10 => 255 < s.word 10
  | 2, 11 => s.word 11 = 0 ∨ 255 < s.word 11
  | 2, 12 => 2 < s.word 12
  | 2, 14 => 1 < s.word 14 ∨ (s.word 14 = 1 ∧ 1 ≤ s.word 15 ∧ s.word 15 ≤ 7)
  | 2, 15 => 7 < s.word 15
  | _, 16 => 1 < s.word 16
  | _, _ => False

/-- The definition can be installed in a place beside the windows defined now (R23 conditions 3 to 9). -/
def Fits (s : State) (n : WinNo) (d : Definition) : Prop :=
  d.rangeOk s.straps.mb ∧ d.fieldsOk ∧
    (∀ m w, m ≠ n → s.win m = some w → d.apart w.defn ∧ d.body.clashes w.defn.body = false) ∧
    d.cost ≤ s.pool.free.length + (s.heldBy n).length

/-- Definitions are installed one after another: each that passes the checks of R23 against the windows then defined is
installed in one step, and each other leaves its place as it is (R25, R28). -/
def Installs (s : State) : List RawDefn → State → Prop
  | [], t => t = s
  | r :: rs, t =>
    (∀ n d, s.checkDefn r = .ok (n, d) → Installs (s.install n d) rs t) ∧
      (∀ f, s.checkDefn r = .error f → Installs s rs t)

/-- The range of SETID's parameter word `k` (R103, R110, R157, R175). -/
def SetidRange : Nat → Nat → Prop
  | 1, v => v ≤ 127
  | 2, v => v ≤ 200
  | 3, v => 1 ≤ v ∧ v ≤ 8
  | 4, v => 1 ≤ v ∧ v ≤ 16
  | 5, v => v ≤ 255
  | 6, v => 1 ≤ v ∧ v ≤ 15
  | 7, v => v ≤ 255
  | 8, v => v ≤ 255
  | 9, v => 1 ≤ v ∧ v ≤ 8
  | 10, v => 1 ≤ v ∧ v ≤ 15
  | 11, v => 1 ≤ v ∧ v ≤ 255
  | 12, v => v ≤ 16
  | 13, v => v ≤ 16
  | _, v => v ≤ 1023

/-- A number of `n` bytes in the Profile Store, most significant first (R181). -/
def Memory.stored (m : Memory) (offset n : Nat) : Nat :=
  (List.range n).foldl (fun v i => 256 * v + (m.read 0xFF (offset + i)).toNat) 0

/-- The number of the `i`-th definition of the stored profile (R181). -/
def Memory.definedNumber (m : Memory) (i : Nat) : Nat := m.stored (25 + 24 * i) 1

/-- The `i`-th definition of the stored profile, field by field (R181). -/
def Memory.definition (m : Memory) (i : Nat) : RawDefn :=
  let field := fun offset n => m.stored (25 + 24 * i + offset) n
  { number := field 0 1, kind := field 1 1, base := field 2 3, length := field 5 2, topic := field 7 2, cls := field 9 1
    mode := field 10 1, trigger := field 11 2, refresh := field 13 1, hold := field 14 1, action := field 15 1
    fallback := field 16 2, release := field 18 1, group := field 19 1, start := field 20 1 }

/-- The stored definition is this definition of place `n`, in every field that its kind holds, with the codes of SETW; each number
is cut to its bytes, which loses nothing of a value in its range (R22, R175, R181). -/
def RawDefn.Tells (r : RawDefn) (n : WinNo) (d : Definition) : Prop :=
  r.number = n.val ∧ r.base = d.base % 0x1000000 ∧ r.length = d.length % 0x10000 ∧
    r.start = (if d.startEnabled then 1 else 0) ∧
    match d.body with
    | .publish b =>
      r.kind = 1 ∧ r.topic = b.topic % 0x10000 ∧ r.cls = b.cls % 256 ∧ r.refresh = b.refresh % 256 ∧
        match b.mode with
        | .onWrite => r.mode = 0
        | .onTrigger k => r.mode = 1 ∧ r.trigger = k % 0x10000
    | .subscribe b =>
      r.kind = 2 ∧ r.topic = b.topic % 0x10000 ∧ r.hold = b.hold % 256 ∧
        r.release = (if b.releaseOnWrite then 1 else 0) ∧ r.group = b.group.val ∧
        match b.action with
        | .hold => r.action = 0
        | .fallback w => r.action = 1 ∧ r.fallback = w.toNat
        | .release => r.action = 2
    | .status => r.kind = 3

/-- A store of format 1 that is not VALID: its count of definitions, its length, its CRC, an enable set, a flag, the car
number, a parameter, or a window number is not as R169 wants it. -/
def Memory.Invalid (m : Memory) : Prop :=
  let count := m.stored 24 1
  m.stored 0 1 = 1 ∧
    (31 < count ∨ m.stored 1 2 ≠ 27 + 24 * count ∨
      count ≤ 31 ∧ (crc16 ((List.range (25 + 24 * count)).map fun i => m.read 0xFF i)).toNat ≠ m.stored (25 + 24 * count) 2 ∨
      4096 ≤ m.stored 18 2 ∨ 4096 ≤ m.stored 20 2 ∨ 1 < m.stored 22 1 ∨ 1 < m.stored 23 1 ∨
      (∃ k, 1 ≤ k ∧ k ≤ 13 ∧ ¬ SetidRange k (m.stored (2 + k) 1)) ∨ ¬ SetidRange 14 (m.stored 16 2) ∨
      (∃ i, i < count ∧ (m.definedNumber i = 0 ∨ 31 < m.definedNumber i)) ∨
      ∃ i j, i < j ∧ j < count ∧ m.definedNumber i = m.definedNumber j)

/-- A pool granule holds these 16 bytes and the rest of the pool is as it was. -/
def GranuleFilled (m m' : Memory) (g : Nat) (b : Nat → Byte) : Prop :=
  ∀ a, m'.read 0 a = if 16 * g ≤ a ∧ a < 16 * g + 16 then b (a - 16 * g) else m.read 0 a

/-! ### Timer events -/

/-- The part is released, no share of an event is left to take, and the next slot boundary is the wrap (R91, R93). -/
def WrapNext (s : State) : Prop := s.held = false ∧ s.due = [] ∧ 63 * 2 ^ 34 ≤ s.timer.phi.toNat

/-- The part is released, and this block's share of an event that has begun is still to be taken
(notes/assumptions/7.md); with a share of a slot-start event, those of the cycle-start event before it are taken (R93), and
with the decisions of the beacon-phase end the misses of slot 7 (R114). -/
def Due (s : State) (d : Duty) : Prop :=
  s.held = false ∧ d ∈ s.due ∧ (d.ofSlot = true → ∀ x ∈ s.due, x.ofSlot = true) ∧
    (d = .phaseEnd ∨ d = .holdover → ∀ x ∈ s.due, x.isMiss = false)

/-- The phase, as a number, one tick on (R91). -/
def Timer.ticked (t : Timer) : Nat := t.phi.toNat + (524288 + t.trim).toNat

/-- The shares of a cycle-start event of this number (notes/assumptions/7.md): the windows that are PENDING or CLOSING, the
Link Controller and Frame Engine, the journal, the refresh of every LIVE PUBLISH window, the overlay age of every LIVE
SUBSCRIBE window, the staging age of groups 1 to 7, the served-cycle count. -/
def State.cycleShares (s : State) (cycle : Word) : List Duty :=
  let windows := fun p : Window → Bool =>
    (List.finRange 32).filter fun n : WinNo => decide (n ≠ 0) && (s.win n).any p
  [.windows (windows fun w => decide (w.state = .pending ∨ w.state = .closing)) cycle, .linkCycle, .journalAge]
    ++ (windows fun w => decide (w.state = .live) && w.isPublish).map .refresh
    ++ (windows fun w => decide (w.state = .live) && w.sub?.isSome).map .overlayAge
    ++ ([1, 2, 3, 4, 5, 6, 7] : List GroupNo).map .stagingAge ++ [.served]

/-- The shares of the slot-start event that begins slot `k` and ends slot `ended` (notes/assumptions/7.md): the misses of the
beacon slot that ended, the STARTING count, at slot 8 the beacon-phase end, the loss deadline and the holdover test, then the
settings of the slot. -/
def State.slotShares (s : State) (k ended : Nat) : List Duty :=
  (if ended ≤ 7 then (s.link.table.filter fun e => e.phase == ended).map fun e => .miss ended e.node else [])
    ++ [.starting] ++ (if k = 8 then [.phaseEnd, .lost, .holdover] else []) ++ [.slot k]

/-- These shares of an event are taken, in this order. -/
def State.afterShares (s : State) (l : List Duty) : State := l.foldl State.perform s

/-- The share has been taken. -/
def State.taken (s : State) (d : Duty) : State := { s with due := s.due.erase d }

/-- Every flag of a window's images is clear, its publication states are IDLE and its overlay is EMPTY (R31, R33). -/
structure Window.Blank (w : Window) : Prop where
  states : ∀ x ∈ w.pub.states, x = .idle
  dirty : ∀ b ∈ w.pub.dirty, b = false
  present : ∀ b ∈ w.ov.present ++ w.ov.staged, b = false
  backlog : w.pub.backlog = false
  overlay : w.ov.state = .empty ∧ w.ov.revision = none ∧ w.ov.age = 0

/-- The set alert bits `bits` as raised: those of them that are record-enabled join the pending set (R164). -/
def Status.raised (x : Status) (bits : AlertSet) : AlertSet := x.pending ||| (x.record &&& bits)

/-- A step of the shift register of R121: a shift to the right with the sum of bits 0, 2, 3 and 5 put in at the top. -/
def stepRegister (r : Word) : Word :=
  (r >>> 1) ||| (if (r.getLsbD 0 ^^ r.getLsbD 2 ^^ r.getLsbD 3 ^^ r.getLsbD 5) then 0x8000 else 0)

/-- No staged flag is set. -/
def Window.unstaged (w : Window) : Window :=
  { w with ov := { w.ov with staged := w.ov.staged.map fun _ => false } }

/-! ### Journal steps -/

/-- A granule that changed in flight, its entry gone: queued again where its window is LIVE and it is fully known, or else
left WANTED, with the backlog flag set when the journal refused it (R53, R60, R65). -/
structure Requeued (w v : Window) (g : Nat) : Prop where
  offered : w.state = .live → w.fullyKnown g = true → v.granState g = .waiting ∨
    (v.granState g = .wanted ∧ v.pub.backlog = true)
  left : w.state ≠ .live ∨ w.fullyKnown g = false → v.granState g = .wanted

/-- Frames in flight are reverted: the sent-frame list is empty, every entry WAITING in its place, and the granules of those
that were IN_FLIGHT are WAITING (R69). -/
structure Reverted (s t : State) : Prop where
  sent : t.fe.sent = []
  journal : t.journal = { s.journal with entries := s.journal.entries.map fun e => { e with seq := none } }
  granules : ∀ n w g, s.win n = some w → ∃ v, t.win n = some v ∧ v.granState g =
    if (∃ e ∈ s.journal.entries, e.seq.isSome = true ∧ e.Covers n g) ∧
        (w.granState g = .inFlight ∨ w.granState g = .inFlightAgain) then .waiting else w.granState g

/-! ### The Link Controller -/

/-- The entry holding a role. -/
def Link.holder (l : Link) (r : Role) : Option Neighbour := l.table.find? fun e => decide (e.role = r)

/-- An entry is a candidate (R116). -/
def Neighbour.Candidate (p : Params) (e : Neighbour) : Prop :=
  e.role = .none ∧ e.heard = true ∧ e.accepting = true ∧ e.closing = false ∧ e.bar = 0 ∧ p.u ≤ e.score

/-- The best candidate of a table: the highest score, and of equal scores the lower node number (R116). -/
def Best (p : Params) (table : List Neighbour) (c : Neighbour) : Prop :=
  c ∈ table ∧ c.Candidate p ∧
    ∀ e ∈ table, e.Candidate p → e.score < c.score ∨ (e.score = c.score ∧ c.node ≤ e.node)

/-- The best candidate as the status record shows it, or none (R116, R162). -/
def Noted (p : Params) (table : List Neighbour) (b : Option (Nat × Nat)) : Prop :=
  (∀ c, Best p table c → b = some (c.node, c.score)) ∧ ((∀ e ∈ table, ¬ e.Candidate p) → b = none)

/-- The link with this node as its target on a first try, the request due in a drawn contention slot (R120, R121). -/
def Link.aimedAt (l : Link) (node : Nat) : Link :=
  let r := stepRegister l.lfsr
  { l with
    table := l.table.map fun e => if e.node = node then { e with role := .target } else e
    keptTarget := none, lfsr := r
    join := { tries := 1, wait := 0, due := some (60 + r.toNat % 4), sent := false, ends := 0 } }

/-- The best candidate becomes TARGET and the link JOINING, or without one the link goes to SEARCH (R122, R123, R126). -/
def JoinsBest (p : Params) (l m : Link) : Prop :=
  (∀ c, Best p l.table c → m = { l.aimedAt c.node with state := .joining }) ∧
    ((∀ e ∈ l.table, ¬ e.Candidate p) → m = { l with
      state := .search, grants := [], keptTarget := none
      join := { tries := 0, wait := 0, due := none, sent := false, ends := 0 } })

/-- The table once a node has lost its role, its bar count set where `bar` gives one, with the drop test (R114). -/
def roleLost (p : Params) (table : List Neighbour) (node : Nat) (bar : Option Nat) : List Neighbour :=
  (table.map fun e => if e.node = node then { e with role := .none, bar := bar.getD e.bar } else e).filter fun e =>
    !(e.node == node && decide (p.d ≤ e.misses))

/-- The table once every role is lost, with the drop test (R114, R119). -/
def rolesLost (p : Params) (table : List Neighbour) : List Neighbour :=
  (table.filter fun e => e.role == .none || decide (e.misses < p.d)).map fun e => { e with role := .none }

/-- An unanswered request with the try count below 6: one more try, a drawn wait, and with no wait left the request due in a
drawn slot (R123). -/
def Link.backedOff (l : Link) : Link :=
  let r := stepRegister l.lfsr
  let wait := r.toNat % 2 ^ l.join.tries
  if wait = 0 then
    { l with lfsr := stepRegister r, join :=
      { tries := l.join.tries + 1, wait := 0, due := some (60 + (stepRegister r).toNat % 4), sent := false, ends := 0 } }
  else
    { l with lfsr := r, join := { tries := l.join.tries + 1, wait := wait - 1, due := none, sent := false, ends := 0 } }

/-- The first JOIN_ACCEPT or JOIN_REFUSE entry for a car (R122). -/
def Kept.firstAnswer (k : Kept) (car : Nat) : Option GrantKind :=
  (k.grants.find? fun x => decide (x.car = car) && (x.kind == .joinAccept || x.kind == .joinRefuse)).map GrantEntry.kind

/-- The beacon refuses the car: its first answer is a refusal, or it shows CLOSING without an accept (R122, R129). -/
def Kept.Refuses (k : Kept) (car : Nat) : Prop :=
  k.firstAnswer car ≠ some .joinAccept ∧ (k.firstAnswer car = some .joinRefuse ∨ k.closing = true)

/-- The target has sent this cycle no accept and no refusal (R122, R123). -/
def Unanswered (l : Link) : Prop := ∀ k, l.keptTarget = some k → k.firstAnswer l.car = none ∧ k.closing = false

/-- The beacon releases the car or shows CLOSING (R125, R129). -/
def Kept.LetsGo (k : Kept) (car : Nat) : Prop :=
  (∃ x ∈ k.grants, x.car = car ∧ x.kind = .release) ∨ k.closing = true

/-- One grant entry taken into the list, and the number ignored or cut so far (R124). -/
def grantStep (a : List Grant × Nat) (e : GrantEntry) : List Grant × Nat :=
  match e.kind with
  | .joinAccept | .joinRefuse | .release => a
  | .up | .down =>
    let last := min 59 (e.first + e.count - 1)
    if e.count = 0 ∨ e.first < 8 ∨ 59 < e.first ∨ ∃ g ∈ a.1, e.first ≤ g.last ∧ g.first ≤ last then (a.1, a.2 + 1)
    else
      (a.1 ++ [{ up := decide (e.kind = .up), dest := e.car, first := e.first, last := last }],
        if 60 < e.first + e.count then a.2 + 1 else a.2)

/-- The serving link is lost at a beacon-phase end: the serving node lets the car go, which bars it, or it has taken Ls
misses (R125, R129). -/
def Lost (s : State) (e : Neighbour) (bar : Option Nat) : Prop :=
  (bar = some 16 ∧ ∃ k, s.link.keptServing = some k ∧ k.LetsGo s.link.car) ∨
    (bar = none ∧ (∀ k, s.link.keptServing = some k → ¬ k.LetsGo s.link.car) ∧ s.params.ls ≤ e.misses)

/-- The serving link holds. -/
def Holds (s : State) (e : Neighbour) : Prop :=
  (∀ k, s.link.keptServing = some k → ¬ k.LetsGo s.link.car) ∧ e.misses < s.params.ls

/-- The link once the serving node is lost: no grants, and the node lost is the previous node (R126). -/
def Link.bereft (l : Link) (p : Params) (node : Nat) (bar : Option Nat) : Link :=
  { l with
    table := roleLost p l.table node bar, grants := [], prevNode := node, keptServing := none, persist := 0
    lastTested := none }

/-- The grant list a kept beacon gives, with the number of its entries ignored or cut; without one it is empty (R124). -/
def granted (k : Option Kept) : List Grant × Nat := ((k.map Kept.grants).getD []).foldl grantStep ([], 0)

/-- The counters with the grants ignored or cut of a kept beacon counted (R124). -/
def State.clipped (s : State) (k : Option Kept) : Vector (BitVec 32) 24 :=
  s.status.counters.set 22 (s.status.counters[22] + BitVec.ofNat 32 (granted k).2)

/-! ### Frames as sent (R132, R178) -/

/-- A body with its CRC, most significant byte first. -/
def withCrc (body : List Byte) : List Byte := body ++ airWord (crc16 body)

/-- A grant entry's bytes. -/
def GrantEntry.bytes (e : GrantEntry) : List Byte :=
  [BitVec.ofNat 8 e.car, BitVec.ofNat 8 e.first, BitVec.ofNat 8 e.count,
    match e.kind with | .up => 1 | .down => 2 | .joinAccept => 3 | .joinRefuse => 4 | .release => 5]

/-- An ack entry's bytes. -/
def AckEntry.bytes (a : AckEntry) : List Byte := [BitVec.ofNat 8 a.car, a.base] ++ airWord a.map

/-- A beacon's body. -/
def Beacon.body (b : Beacon) : List Byte :=
  [BitVec.ofNat 8 (0x20 + b.grants.length), BitVec.ofNat 8 b.node, BitVec.ofNat 8 b.phase] ++ airWord b.cycle
    ++ [(if b.accepting then 1 else 0) + (if b.closing then 2 else 0), BitVec.ofNat 8 b.acks.length]
    ++ b.grants.flatMap GrantEntry.bytes ++ b.acks.flatMap AckEntry.bytes

/-- A beacon's fields lie in their ranges. -/
def Beacon.ok (b : Beacon) : Prop :=
  b.node < 256 ∧ b.phase ≤ 7 ∧ b.grants.length ≤ 16 ∧ b.acks.length ≤ 16 ∧
    (∀ e ∈ b.grants, e.car < 256 ∧ e.first < 256 ∧ e.count < 256) ∧ ∀ a ∈ b.acks, a.car < 256

/-- A delivery record's bytes. -/
def Delivery.bytes (d : Delivery) : List Byte :=
  airWord (BitVec.ofNat 16 d.topic) ++ airWord d.revision
    ++ [BitVec.ofNat 8 d.first, BitVec.ofNat 8 d.data.length] ++ d.data.flatten

/-- A downlink frame's body. -/
def Downlink.body (d : Downlink) : List Byte :=
  [BitVec.ofNat 8 (0x60 + d.records.length), BitVec.ofNat 8 d.node, BitVec.ofNat 8 d.dest, d.seq]
    ++ d.records.flatMap Delivery.bytes

/-- A delivery record's bytes with these bits above the topic in its topic word: the group and the spare bits (R178, R180). -/
def Delivery.bytesUnder (d : Delivery) (above : BitVec 6) : List Byte :=
  airWord (above ++ BitVec.ofNat 10 d.topic) ++ d.bytes.drop 2

/-- A downlink frame's body, record `i` with the bits `above i` above its topic. -/
def Downlink.bodyUnder (d : Downlink) (above : Nat → BitVec 6) : List Byte :=
  d.body.take 4 ++ d.records.zipIdx.flatMap fun r => r.1.bytesUnder (above r.2)

/-- A beacon's body with these bits in the spare bits 7 to 2 of its flags (R180). -/
def Beacon.bodyUnder (b : Beacon) (spare : BitVec 6) : List Byte :=
  b.body.modify 5 (· ||| spare ++ (0 : BitVec 2))

/-- Records of 1 to 14 granules of 16 bytes each. -/
def RecordsOk (rs : List Delivery) : Prop :=
  ∀ r ∈ rs, 1 ≤ r.data.length ∧ r.data.length ≤ 14 ∧ ∀ g ∈ r.data, g.length = 16

/-- A downlink frame's fields lie in their ranges, and its body is at most 256 bytes. -/
def Downlink.ok (d : Downlink) : Prop :=
  d.node < 256 ∧ d.dest < 256 ∧ d.records.length ≤ 11 ∧ d.body.length ≤ 256 ∧
    ∀ r ∈ d.records, r.topic < 1024 ∧ r.first < 256 ∧ 1 ≤ r.data.length ∧ r.data.length ≤ 14 ∧
      ∀ g ∈ r.data, g.length = 16

/-- A frame whose bytes are these is being taken from FRX, as sampled (R106). -/
def Receiving (s : State) (r : Reception) (bytes : List Byte) (f : RxFrame) : Prop :=
  s.fe.rx = some r ∧ classify bytes = f

end Sys2Proof.Machine
end

