-- ==== Sys2Proof/Certificates/Slice0/Obligations.lean ====
section
/-! DEFINITION. What the provers are asked to prove: statements from the numbered rules of the spec, over every state and
operand (OBLIGATIONS.json). -/

open Sys2Proof Sys2Proof.Machine

/-! ### The queue, resets and start-up -/

/-- A step takes the command at the front of the queue and runs it on the state with the queue's rest. -/
def Obligations.StepRunsFrontCommand : Prop :=
  ∀ (s : State) (c : Instr) (rest : List Instr), s.pending = c :: rest → step s = exec c { s with pending := rest }

/-- The model's choice, notes/assumptions/1.md: on an empty queue a step is one REFCLK tick. Held in reset nothing
changes. Released, the shares of an event still due are taken first, in their order (notes/assumptions/7.md); then the phase
rises by the increment of R91. R92, R93: a tick that brings no new slot does nothing else, nor one that brings the slot started
last; one that brings another slot makes it the last started, and the shares of its slot-start event are taken; one that wraps
the phase brings the cycle-start event first, with the cycle number raised by 1, or clears a suppression. R37, R38: what
`arbitrate` does at the end of every step: a grant goes on while it has work; a free port goes to the first waiting
requester after the one granted last, in the circular order. R39: a grant to the Drain Engine begins its step, which takes the
learning request held and the head entry, if there is one, and leaves the learning slot free. -/
def Obligations.IdleStepIsOneTick : Prop :=
  (∀ s : State, s.pending = [] →
    (s.held = true → step s = .next s.arbitrate) ∧
    (s.held = false →
      let u := { s with due := [] }.afterShares s.due
      let sum := u.timer.ticked
      let ended := u.timer.phi.toNat / 2 ^ 34
      let k := sum % 2 ^ 40 / 2 ^ 34
      let ticked := { u.timer with phi := BitVec.ofNat 40 sum }
      let quiet := k = ended ∨ k = u.timer.last
      (s.due = [] → u = s) ∧
      (sum < 2 ^ 40 → quiet → step s = .next (State.arbitrate { u with timer := ticked })) ∧
      (sum < 2 ^ 40 → ¬ quiet → step s = .next (State.arbitrate
        ({ u with timer := { ticked with last := k } }.afterShares (u.slotShares k ended)))) ∧
      (2 ^ 40 ≤ sum → TrimLaw u →
        let slot : List Duty := if u.timer.last = 0 then [] else u.slotShares 0 63
        k = 0 ∧
        (u.timer.suppress = true → step s = .next (State.arbitrate
          ({ u with timer := { ticked with suppress := false, last := 0 } }.afterShares slot))) ∧
        (u.timer.suppress = false → step s = .next (State.arbitrate
          ({ u with timer := { ticked with cycle := u.timer.cycle + 1, last := 0 } }.afterShares
            (u.cycleShares (u.timer.cycle + 1) ++ slot))))))) ∧
  (∀ s : State,
    let granted := fun r : Requester => match r with
      | .drain => { s with
          port := some (.drain { learn := s.tap.learn, entry := decide (s.tap.fifo ≠ []) }), arbiter := .drain
          tap := { s.tap with learn := none } }
      | .frame => { s with port := some .frame, arbiter := .frame }
      | .mailbox => { s with port := some .mailbox, arbiter := .mailbox }
    (∀ g, s.port = some g → HasWork s g → s.arbitrate = s) ∧
    ((∀ g, s.port = some g → ¬ HasWork s g) → (∀ r, ¬ Waits s r) → s.arbitrate = { s with port := none }) ∧
    ((∀ g, s.port = some g → ¬ HasWork s g) → ∀ first second last : Requester,
      (s.arbiter, first, second, last) ∈ [(.drain, .frame, .mailbox, .drain), (.frame, .mailbox, .drain, .frame),
        ((.mailbox, .drain, .frame, .mailbox) : Requester × Requester × Requester × Requester)] →
      (Waits s first → s.arbitrate = granted first) ∧
      (¬ Waits s first → Waits s second → s.arbitrate = granted second) ∧
      (¬ Waits s first → ¬ Waits s second → Waits s last → s.arbitrate = granted last)))

/-- R20, R29, R36, R161, R172: power-on, RESET# low, BYPASS# low and RSET each begin a reset of their kind, which leaves every
block at its reset values (`AtReset`), with ALERT# and TXK released and RON low, no share of an event due, and the granules held on
the free list behind those free before; power-on owes the pool test, and its free list holds all granules in ascending order. The
release of the last reset that holds the part samples the straps at their pins, and start-up begins: with the pool test when one is
owed, else at step 2; RSET's release follows in the same row and samples them too. The model's choices: the reset values that no
rule gives (notes/assumptions/3.md, 5.md), FTX's record emptied (6.md), the granules freed in ascending window number (39.md), at
power-on the pool taken as usable and the images keeping their bytes (4.md), RSET's reset and release at its snapshot's row (19.md),
an assert of a pin that is low already without effect and the sampling at the last release of a pin (20.md), the levels at the
strap pins brought by the rows of a release (38.md), and a free value for what a store being written holds (8.md). -/
def Obligations.ResetsBeginAndEnd : Prop :=
  (∀ s : State,
     (∃ t : State, exec .powerOn s = .next t.arbitrate ∧ AtReset s t .powerOn ∧ t.held = true ∧ t.rst.supply = true ∧ t.rst.testOwed = true ∧
       t.pool.usable = true) ∧
     (s.rst.pinLow = false → ∃ t : State, exec .resetAssert s = .next t.arbitrate ∧ AtReset s t .resetPin ∧ t.held = true ∧
       t.rst = { s.rst with kind := .resetPin, pinLow := true } ∧ t.pool.usable = s.pool.usable) ∧
     (s.rst.bypassLow = false → ∃ t : State, exec .bypassAssert s = .next t.arbitrate ∧ AtReset s t .bypass ∧ t.held = true ∧
       t.rst = { s.rst with kind := .bypass, bypassLow := true } ∧ t.pool.usable = s.pool.usable) ∧
     (s.rst.pinLow = true → exec .resetAssert s = .next s.arbitrate) ∧
     (s.rst.bypassLow = true → exec .bypassAssert s = .next s.arbitrate) ∧
     (CommandDue 0xA5FF s → ∃ t : State, AtReset { s with win0 := t.win0 } t .rset ∧ t.win0.mem = s.win0.mem ∧
       t.rst = { s.rst with kind := .rset } ∧ t.pool.usable = s.pool.usable ∧
       exec .rset s = .next (State.arbitrate { t with
         rst := { t.rst with phase := if s.rst.testOwed then .poolTest else .startUp }, straps := s.strapPins }))) ∧
  (∀ (s : State) (straps : Straps),
     let next := if s.rst.testOwed then Phase.poolTest else Phase.startUp
     (s.rst.bypassLow = true → s.rst.supply = false → s.rst.pinLow = false →
       exec (.bypassRelease straps) s = .next (State.arbitrate { s with
         rst := { s.rst with bypassLow := false, phase := next }, straps := straps, strapPins := straps })) ∧
     (s.rst.bypassLow = false → s.rst.supply = true ∨ s.rst.pinLow = true →
       exec (.resetRelease straps) s = .next (State.arbitrate { s with
         rst := { s.rst with supply := false, pinLow := false, phase := next }, straps := straps, strapPins := straps })) ∧
     (s.rst.bypassLow = true → s.rst.supply = true ∨ s.rst.pinLow = true →
       exec (.bypassRelease straps) s = .next (State.arbitrate { s with
         rst := { s.rst with bypassLow := false }, strapPins := straps }) ∧
       exec (.resetRelease straps) s = .next (State.arbitrate { s with
         rst := { s.rst with supply := false, pinLow := false }, strapPins := straps })) ∧
     (s.rst.bypassLow = false →
       exec (.bypassRelease straps) s = .next (State.arbitrate { s with strapPins := straps })) ∧
     (s.rst.supply = false → s.rst.pinLow = false →
       exec (.resetRelease straps) s = .next (State.arbitrate { s with strapPins := straps })))

/-- R172, R173, R161, R169, R170: start-up ends. With the store erased, of another format than 1, INVALID by any of R169's
conditions, or torn by a write that was cut short, the part runs on the defaults with every place FREE; the mailbox is READY, or
DONE with the RSET result after an RSET. A torn store is judged ABSENT or INVALID: a free value says which
(notes/assumptions/8.md). -/
def Obligations.StartUpOnDefaults : Prop :=
  ∀ (s : State) (m : Memory) (failed : Bool), s.held = false →
    s.store = .torn ∨ s.store = .holds m ∧ (m.read 0xFF 0 ≠ 1 ∨ m.Invalid) →
    s.places = Vector.replicate 32 none →
    ∀ (c : Instr) (usable : Bool),
    (c = .poolTestEnd failed ∧ s.rst.phase = .poolTest ∧ usable = !failed ∨
      c = .endOfStartUp ∧ s.rst.phase = .startUp ∧ usable = s.pool.usable) →
    ∃ t : State, exec c s = .next t.arbitrate ∧ t.running = true ∧
      t = { s with rst := t.rst, pool := t.pool, win0 := t.win0, params := t.params, link := t.link, mbox := t.mbox
                   status := t.status, freeCount := t.freeCount } ∧
      t.freeCount = (if s.store = .torn then s.freeCount + 1 else s.freeCount) ∧
      t.pool = { mem := [], free := if usable then List.range 2048 else [], usable := usable } ∧
      t.win0 = { mem := [], bad := List.replicate 128 false } ∧
      t.params = { f := 40, s := 2, w := 4, p := 24, d := 6, u := 64, hm := 20, k := 3, ls := 4, hl := 25, kp := 8,
                   ki := 4, lam := 96 } ∧
      t.link = { s.link with car := 0, lfsr := 0x0101, autoJoin := false } ∧
      t.status.record = 0xFFF ∧ t.status.signal = 0 ∧ t.status.autoClear = false ∧
      (s.store = .torn → t.status.store = .absent ∨ t.status.store = .invalid) ∧
      (s.store = .holds m → t.status.store = if m.read 0xFF 0 = 0xFF then .absent else .invalid) ∧
      (s.rst.kind ≠ .rset → t.mbox = s.mbox ∧ t.status.pending = s.status.pending) ∧
      (s.rst.kind = .rset → t.mbox.state = .done ∧ t.mbox.response =
          { result := .ok, echo := 0xA5FF, prevCommand := s.mbox.prevCommand, prevResult := s.mbox.prevResult
            overrun := s.mbox.overrun, lostWrite := s.mbox.lostWrite, data := [] } ∧
        t.status.pending = s.status.pending ||| 0x800) ∧
      (c = .poolTestEnd failed → t.rst.testOwed = false)

/-- R172 steps 3 to 5, R173, R161, R25: a VALID profile gives its identity, parameters, enable sets and flags; its definitions
are installed one at a time in order of window number, each tested against R23 (`checkDefn`, whose checks SETW's statements give)
with those already installed, in the pool as the test left it; the start-enabled windows go LIVE with their entry fence, and a set
auto-join flag with a car number of 1 to 127 takes the link to STARTING. The mailbox is READY, or DONE with the RSET result after
an RSET. The model's choice: the publication and overlay registers of an installed window that does not go LIVE
(notes/assumptions/14.md). -/
def Obligations.StartUpTakesTheProfile : Prop :=
  ∀ (s : State) (p : Profile) (failed : Bool), s.held = false → s.storedProfile = some p →
    s.places = Vector.replicate 32 none →
    ∀ (c : Instr) (usable : Bool),
    (c = .poolTestEnd failed ∧ s.rst.phase = .poolTest ∧ usable = !failed ∨
      c = .endOfStartUp ∧ s.rst.phase = .startUp ∧ usable = s.pool.usable) →
    ∃ t u : State, ∃ order, exec c s = .next t.arbitrate ∧ t.running = true ∧
      (c = .poolTestEnd failed → t.rst.testOwed = false) ∧
      (s.rst.kind ≠ .rset → t.mbox = s.mbox) ∧
      (s.rst.kind = .rset → t.mbox.state = .done ∧ t.mbox.response =
          { result := .ok, echo := 0xA5FF, prevCommand := s.mbox.prevCommand, prevResult := s.mbox.prevResult
            overrun := s.mbox.overrun, lostWrite := s.mbox.lostWrite, data := [] }) ∧
      ((∀ g : GroupNo, s.groups[g].staging = none) → t.status.pending =
        if s.rst.kind = .rset then s.status.pending ||| (p.record &&& 0x800) else s.status.pending) ∧
      t = { s with rst := t.rst, places := t.places, pool := t.pool, win0 := t.win0, groups := t.groups
                   params := t.params, link := t.link, mbox := t.mbox, status := t.status } ∧
      t.status.store = .valid ∧ t.link.car = p.car ∧
      t.params = p.params ∧ t.status.record = p.record ∧ t.status.signal = p.signal ∧
      t.status.autoClear = p.autoClear ∧ t.link.autoJoin = p.autoJoin ∧
      t.link.lfsr = (if p.car = 0 then 0x0101 else BitVec.ofNat 16 (p.car * 257)) ∧
      (p.autoJoin = true → 1 ≤ p.car ∧ p.car ≤ 127 → t.link.state = .starting ∧ t.link.startCount = 0) ∧
      (p.autoJoin = false ∨ p.car = 0 → t.link.state = s.link.state) ∧
      order.Perm p.defns ∧ order.Pairwise (fun a b => a.number ≤ b.number) ∧
      Installs { s with pool := { mem := [], free := if usable then List.range 2048 else [], usable := usable } } order u ∧
      t.pool = u.pool ∧ (∀ n, u.win n = none → t.win n = none) ∧
      ∀ n w, u.win n = some w → ∃ v, t.win n = some v ∧ v.defn = w.defn ∧ v.mapA = w.mapA ∧ v.mapB = w.mapB ∧ v.Blank ∧
        v.state = (if w.defn.startEnabled then .live else .idle) ∧
        (w.defn.startEnabled = true → v.fence = s.tap.fifo.length)

/-! ### The bus -/

/-- R2: every write cycle reaches the M-port as it was presented, in every state; the part adds none of its own, and a
read cycle is carried as a read. -/
def Obligations.BusCarriesEveryCycle : Prop :=
  ∀ (s : State) (i : Instr),
    (∀ c, i = .cPortWrite c → ∃ t : State, ∃ b, exec i s = .next t.arbitrate ∧ t.bus = some b ∧ b.write = true ∧ b.cycle = c) ∧
    (∀ c, i = .cPortRead c → ∃ t : State, ∃ b, exec i s = .next t.arbitrate ∧ t.bus = some b ∧ b.write = false ∧ b.cycle = c) ∧
    ((∀ c, i ≠ .cPortWrite c ∧ i ≠ .cPortRead c) → ∀ t, exec i s = .next t → t.bus = s.bus)

/-- R4, R24: an address matches exactly the one window it lies in, at its offset from that window's base, and both bytes
of a word match the same window. -/
def Obligations.AddressMatchesItsWindow : Prop :=
  ∀ s : State, WindowsLaw s → s.win 0 = none → ∀ (a : Nat) (n : WinNo) (k : Nat),
    (s.matchAddr a = some (n, k) ↔
      (n = 0 ∧ win0Base s.straps.mb ≤ a ∧ a < win0Base s.straps.mb + 256 ∧ k = a - win0Base s.straps.mb) ∨
      (∃ w, s.win n = some w ∧ w.defn.base ≤ a ∧ a < w.defn.base + w.defn.length ∧ k = a - w.defn.base)) ∧
    (a % 2 = 0 → s.matchAddr a = some (n, k) → s.matchAddr (a + 1) = some (n, k + 1) ∧ (k + 1) / 16 = k / 16)

/-- R12 to R16: a capturable write joins the tail of the FIFO with its parity-good flags, is counted and raises the
peak; at a full FIFO it is lost, its window joins the loss set and CAPTURE_LOSS is raised. That a lane that is not enabled has
a flag too, computed from what the C-port presents there, is the model's choice, notes/assumptions/36.md. -/
def Obligations.CapturableWriteIsTakenOrLost : Prop :=
  ∀ (s : State) (c : BusCycle) (n : WinNo), Capturable s c n →
    ∃ b, b.write = true ∧ b.cycle = c ∧
    (s.tap.fifo.length < 64 → exec (.cPortWrite c) s = .next (State.arbitrate { s with
      bus := some b
      tap := { s.tap with
        fifo := s.tap.fifo ++ [.write { win := n, addr := c.addr, data := c.data, low := c.low, high := c.high
                                        goodLow := laneGood s.straps (lowByte c.data) c.parLow
                                        goodHigh := laneGood s.straps (highByte c.data) c.parHigh }]
        peak := max s.tap.peak (s.tap.fifo.length + 1) }
      status := { s.status with
        counters := s.status.counters.set 0 (s.status.counters[0] + 1)
        pending := if s.tap.fifo.length = 47 then s.status.pending ||| (s.status.record &&& 0x008)
          else s.status.pending } })) ∧
    (64 ≤ s.tap.fifo.length → exec (.cPortWrite c) s = .next (State.arbitrate { s with
      bus := some b
      tap := { s.tap with loss := s.tap.loss ||| (1#32 <<< n.val) }
      status := { s.status with pending := s.status.pending ||| (s.status.record &&& 0x010) } }))

/-- R18: a write to a LIVE release-on-write window clears the present flag of its granule; R12, R20: every other write
that is not capturable only passes to memory. -/
def Obligations.OtherWritesReleaseOrPass : Prop :=
  ∀ (s : State) (c : BusCycle), (∀ n, ¬ Capturable s c n) → ∃ b, b.write = true ∧ b.cycle = c ∧
    (∀ n w k d, Falls s c n w k → (c.low = true ∨ c.high = true) → w.defn.body = .subscribe d →
      d.releaseOnWrite = true →
      exec (.cPortWrite c) s = .next (State.arbitrate { s with
        bus := some b
        places := s.places.set n (some { w with ov := { w.ov with present := w.ov.present.set (k / 16) false } }) })) ∧
    ((∀ n w k d, Falls s c n w k → (c.low = true ∨ c.high = true) → w.defn.body = .subscribe d →
      d.releaseOnWrite = false) → exec (.cPortWrite c) s = .next (State.arbitrate { s with bus := some b }))

/-- R3, R6 to R10, R20: what a read returns. It is substituted in a LIVE SUBSCRIBE window that is EXPIRED with FALLBACK or
whose granule is present, in a LIVE STATUS window, and in window 0 at the status word outside READY and at the response
block in DONE and FAIL. Else it returns the memory's data and parity. R162, R163, R177: a LIVE STATUS window reads the status
record, field by field at its offset and with its code. R174, R149, R180: the response block holds result, notes, echo, previous
command and result, data length, and from 0x8C the data, 0 after them and in the spare bytes. -/
def Obligations.ReadsReturn : Prop :=
  (∀ (s : State) (c : BusCycle),
     (∀ n w k d word, Falls s c n w k → w.defn.body = .subscribe d → d.action = .fallback word →
       w.ov.state = .expired → ReadReturns s c (lowByte word) (highByte word)) ∧
     (∀ n w k d, Falls s c n w k → w.defn.body = .subscribe d →
       (w.ov.state = .expired → ∀ word, d.action ≠ .fallback word) → w.ov.present.getD (k / 16) false = true →
       ReadReturns s c (s.imageByte (if w.ov.swapped then w.mapB else w.mapA) k)
         (s.imageByte (if w.ov.swapped then w.mapB else w.mapA) (k + 1))) ∧
     (∀ n w k, Falls s c n w k → w.defn.body = .status → k % 2 = 0 →
       ReadReturns s c (s.recordAt k).1 (s.recordAt k).2) ∧
     (∀ k, s.held = false → s.matchAddr (2 * c.addr.toNat) = some (0, k) →
       (k = 0 → s.mbox.state = .busy → ReadReturns s c 0x01 0x7F) ∧
       (k = 0 → s.mbox.state = .done → ReadReturns s c 0x02 0x7F) ∧
       (k = 0 → s.mbox.state = .fail → ReadReturns s c 0x03 0x7F) ∧
       (0x80 ≤ k → s.mbox.state = .done ∨ s.mbox.state = .fail →
         ReadReturns s c (s.mbox.response.byteAt k) (s.mbox.response.byteAt (k + 1))))) ∧
  (∀ (s : State) (c : BusCycle),
     (s.held = true → exec (.cPortRead c) s = .next (State.arbitrate { s with bus := some (memoryPins c) })) ∧
     (s.matchAddr (2 * c.addr.toNat) = none →
       exec (.cPortRead c) s = .next (State.arbitrate { s with bus := some (memoryPins c) })) ∧
     (∀ n w k, n ≠ 0 → s.matchAddr (2 * c.addr.toNat) = some (n, k) → s.win n = some w → w.state ≠ .live →
       exec (.cPortRead c) s = .next (State.arbitrate { s with bus := some (memoryPins c) })) ∧
     (∀ n w k d, Falls s c n w k → w.defn.body = .subscribe d →
       (w.ov.state = .expired → ∀ word, d.action ≠ .fallback word) → w.ov.present.getD (k / 16) false = false →
       exec (.cPortRead c) s = .next (State.arbitrate { s with bus := some (memoryPins c) })) ∧
     (∀ k, s.matchAddr (2 * c.addr.toNat) = some (0, k) →
       (s.mbox.state = .ready ∨ (1 ≤ k ∧ k < 0x80) ∨ (0x80 ≤ k ∧ s.mbox.state = .busy)) →
       exec (.cPortRead c) s = .next (State.arbitrate { s with bus := some (memoryPins c) })))

/-- R5, R19: a read of a LIVE PUBLISH window returns memory; with the learning slot free, and a byte of an enabled,
parity-good lane unknown, it leaves a learning request, and else the slot stays as it was. -/
def Obligations.PublishReadIsLearned : Prop :=
  ∀ (s : State) (c : BusCycle) (n : WinNo) (w : Window) (k : Nat), Falls s c n w k → w.isPublish = true →
    let low := c.low && laneGood s.straps (lowByte c.data) c.parLow
    let high := c.high && laneGood s.straps (highByte c.data) c.parHigh
    let unknown := (low = true ∧ w.pub.known.getD k false = false) ∨
      (high = true ∧ w.pub.known.getD (k + 1) false = false)
    (s.tap.learn = none → unknown →
      exec (.cPortRead c) s = .next (State.arbitrate { s with
        bus := some (memoryPins c)
        tap := { s.tap with
          learn := some { win := n, addr := c.addr, data := c.data, low := low, high := high } } })) ∧
    (s.tap.learn.isSome = true ∨ ¬ unknown →
      exec (.cPortRead c) s = .next (State.arbitrate { s with bus := some (memoryPins c) }))

/-! ### The Drain Engine -/

/-- R52, R53: what a change does to the publication state of the granule it reaches, and that it touches nothing else
but the journal's own state; a fully known granule that it leaves WANTED is offered, and a merge is followed by a backlog scan.
R59: a queue request extends the one WAITING neighbour that qualifies, or of two the one standing earlier; the two are merged when
their granules are 14 or less; each extension and merge is counted as coalesced. R60: else it makes an entry at the tail of its
class, counted as created; with 48 entries it is refused, the granule stays WANTED, the backlog flag is set, and JOURNAL_FULL is
raised if it was clear. R61: a backlog scan visits the LIVE, backlogged windows in ascending number and offers every granule of
theirs that is WANTED and fully known in ascending order, past any refusal; a window's flag is cleared at the end of its visit
exactly if no offer of it was refused; the scan runs again only if a refusal came after a merge had freed a place. -/
def Obligations.ChangeMovesTheGranule : Prop :=
  (∀ (s : State) (n : WinNo) (w : Window) (g : Nat), s.win n = some w → w.state = .live → w.isPublish = true →
    g < w.pub.states.length → JournalOnly s (s.change n g) ∧ ∃ v, (s.change n g).win n = some v ∧
      (w.granState g = .waiting → s.change n g = s) ∧
      (w.granState g = .inFlight ∨ w.granState g = .inFlightAgain →
        s.change n g = { s with places := s.places.set n (some (w.setGran g .inFlightAgain)) }) ∧
      (w.granState g = .idle ∨ w.granState g = .wanted →
        (w.fullyKnown g = true → v.granState g = .waiting ∨
          (v.granState g = .wanted ∧ v.pub.backlog = true ∧ 48 ≤ s.journal.entries.length ∧
            (s.change n g).journal = s.journal)) ∧
        (let u := { s with places := s.places.set n (some (w.setGran g .wanted)) }
         (w.fullyKnown g = false → s.change n g = u) ∧
         (w.fullyKnown g = true → s.change n g =
           if (u.offer n g).2 = .merged then (u.offer n g).1.backlogScan else (u.offer n g).1)))) ∧
  (∀ (s : State) (n : WinNo) (w : Window) (g : Nat) (p : PublishDef), s.win n = some w → w.defn.body = .publish p →
    w.granState g = .wanted → JournalLaw s →
    let l := s.journal.entries
    let free := fun (a : List Entry) => ∀ e ∈ a, ¬ LowerOf n g e ∧ ¬ UpperOf n g e
    (∀ a e b, l = a ++ e :: b → free (a ++ b) →
      (LowerOf n g e → s.offer n g = (s.queued n w g (a ++ { e with last := g } :: b) 5 1, .extended)) ∧
      (UpperOf n g e → s.offer n g = (s.queued n w g (a ++ { e with first := g } :: b) 5 1, .extended))) ∧
    (∀ a x b y c lo up, l = a ++ x :: b ++ y :: c → free (a ++ b ++ c) → LowerOf n g lo → UpperOf n g up →
      x = lo ∧ y = up ∨ x = up ∧ y = lo →
      (up.last ≤ lo.first + 13 → s.offer n g = (s.queued n w g (a ++ { x with
        first := lo.first, last := up.last, attempts := max lo.attempts up.attempts
        age := max lo.age up.age } :: b ++ c) 5 2, .merged)) ∧
      (lo.first + 13 < up.last → s.offer n g = (s.queued n w g (a ++
        (if x = lo then { x with last := g } else { x with first := g }) :: b ++ y :: c) 5 1, .extended))) ∧
    (free l →
      (l.length < 48 → ∀ a b, l = a ++ b → (∀ e ∈ a, e.cls ≤ p.cls) → (∀ e ∈ b, p.cls < e.cls) →
        s.offer n g = (s.queued n w g (a ++ { win := n, first := g, last := g, cls := p.cls, attempts := 0
                                              age := 0, seq := none } :: b) 4 1, .created)) ∧
      (48 ≤ l.length → s.offer n g = ({ s with
        places := s.places.set n (some { w with pub := { w.pub with backlog := true } })
        status := { s.status with
          pending := if w.pub.backlog then s.status.pending else s.status.raised 0x040 } }, .refused)))) ∧
  ∀ s : State, ScansTo s s.backlogScan ∧
    ((∀ n w, s.win n = some w → w.state = .live → w.pub.backlog = false) → s.backlogScan = s)

/-- R40, R41, R17: a WRITE entry for a window that is not LIVE, is behind its fence, or is of kind SUBSCRIBE is
discarded; the entry leaves, the fences go down, and a waiting loss set fills the place as a LOSS entry. -/
def Obligations.DrainDiscardsEntry : Prop :=
  ∀ (s : State) (c : Captured) (rest : List FifoEntry), Draining s (.write c) rest → c.win ≠ 0 →
    (∀ w, s.win c.win = some w → w.state ≠ .live ∨ w.fence ≠ 0 ∨ ∃ d, w.defn.body = .subscribe d) →
    (s.tap.loss = 0 → exec .drainStep s = .next (State.arbitrate { s with
      port := none, places := s.fencesDown, tap := { s.tap with fifo := rest } })) ∧
    (s.tap.loss ≠ 0 → rest.length = 63 → exec .drainStep s = .next (State.arbitrate { s with
      port := none, places := s.fencesDown
      tap := { s.tap with fifo := rest ++ [.loss s.tap.loss], loss := 0, peak := max s.tap.peak 64 }
      status := { s.status with counters := s.status.counters.set 1 (s.status.counters[1] + 1) } }))

/-- R42, R43, R49, R51, R52: a WRITE entry applied to a LIVE PUBLISH window lane by lane, short of a trigger write. Only the
bytes of its parity-good lanes change in the shadow; in an ON_WRITE window a good lane raises the revision, and the granule
touched gets one change; in an ON_TRIGGER window it becomes DIRTY. Then the entry leaves the FIFO. -/
def Obligations.DrainWritesShadow : Prop :=
  ∀ (s : State) (c : Captured) (rest : List FifoEntry) (w : Window), Draining s (.write c) rest → MemoryLaw s →
    c.win ≠ 0 → s.win c.win = some w → w.state = .live → w.fence = 0 →
    let k := 2 * c.addr.toNat - w.defn.base
    let low := c.low && c.goodLow
    let high := c.high && c.goodHigh
    let known := if c.low then w.pub.known.set k c.goodLow else w.pub.known
    let known := if c.high then known.set (k + 1) c.goodHigh else known
    let bad := (if c.low && !c.goodLow then 1 else 0) + (if c.high && !c.goodHigh then 1 else 0)
    ∃ mem, (∀ a, mem.read 0 a =
        if high = true ∧ a = granAddr w.mapA ((k + 1) / 16) ((k + 1) % 16) then highByte c.data
        else if low = true ∧ a = granAddr w.mapA (k / 16) (k % 16) then lowByte c.data
        else s.pool.mem.read 0 a) ∧
      let u := { s with
        port := none, pool := { s.pool with mem := mem }
        status := { s.status with
          pending := if bad = 0 then s.status.pending else s.status.raised 0x020
          counters := s.status.counters.set 2 (s.status.counters[2] + BitVec.ofNat 32 bad) } }
      (w.mode? = some .onWrite →
        let v := { w with pub := { w.pub with
          known := known, revision := w.pub.revision + if low || high then 1 else 0 } }
        let x := State.change { u with places := s.places.set c.win (some v) } c.win (k / 16)
        JournalOnly { u with places := s.places.set c.win (some v) } x ∧
        ∃ t : State, exec .drainStep s = .next t.arbitrate ∧ EntryLeaves x t rest) ∧
      (∀ trigger, w.mode? = some (.onTrigger trigger) → k ≠ trigger ∨ (low = false ∧ high = false) →
        let v := { w with pub := { w.pub with known := known, dirty := w.pub.dirty.set (k / 16) true } }
        let x := { u with places := s.places.set c.win (some v) }
        ∃ t : State, exec .drainStep s = .next t.arbitrate ∧ EntryLeaves x t rest)

/-- R50, R51: a trigger write, after its own bytes and DIRTY flag, copies every DIRTY, fully known granule of the shadow into
the snapshot: its 16 bytes, its filled flag set, its DIRTY flag cleared, and a change for it. All other bytes and flags stay,
and the revision rises once. -/
def Obligations.TriggerWriteCopies : Prop :=
  ∀ (s : State) (c : Captured) (rest : List FifoEntry) (w : Window) (trigger : Nat), Draining s (.write c) rest →
    MemoryLaw s → c.win ≠ 0 → s.win c.win = some w → w.state = .live → w.fence = 0 →
    w.mode? = some (.onTrigger trigger) →
    2 * c.addr.toNat - w.defn.base = trigger → (c.low && c.goodLow || c.high && c.goodHigh) = true →
    trigger % 2 = 0 → trigger < 16 * w.granules → (w.mapA ++ w.mapB).Nodup → w.mapA.length = w.granules →
    w.mapB.length = w.granules → w.pub.dirty.length = w.granules → w.pub.filled.length = w.granules →
    w.pub.states.length = w.granules →
    let known := if c.low then w.pub.known.set trigger c.goodLow else w.pub.known
    ∃ t : State, ∃ v, exec .drainStep s = .next t.arbitrate ∧ t.win c.win = some v ∧ OthersKept s t c.win 1 ∧
      t = { s with port := none, tap := t.tap, places := t.places, pool := { s.pool with mem := t.pool.mem }
                   journal := t.journal, status := t.status } ∧ v.pub.revision = w.pub.revision + 1 ∧
      v.mapA = w.mapA ∧ v.mapB = w.mapB ∧
      v.pub.known = (if c.high then known.set (trigger + 1) c.goodHigh else known) ∧
      t.counter .parityErrors = s.counter .parityErrors +
        ((if c.low && !c.goodLow then 1 else 0) + (if c.high && !c.goodHigh then 1 else 0)) ∧
      let copied := fun g => (w.pub.dirty.set (trigger / 16) true).getD g false = true ∧ v.shadowKnown g = true
      (∀ g, g < w.granules → copied g →
        v.pub.filled.getD g false = true ∧ v.pub.dirty.getD g false = false ∧
        (w.granState g = .inFlight ∨ w.granState g = .inFlightAgain → v.granState g = .inFlightAgain) ∧
        (w.granState g = .idle ∨ w.granState g = .wanted → v.granState g = .waiting ∨ v.granState g = .wanted) ∧
        ∀ i, i < 16 → t.pool.mem.read 0 (granAddr w.mapB g i) = t.pool.mem.read 0 (granAddr w.mapA g i)) ∧
      (∀ g, g < w.granules → ¬ copied g →
        v.pub.filled.getD g false = w.pub.filled.getD g false ∧
        v.pub.dirty.getD g false = (w.pub.dirty.set (trigger / 16) true).getD g false) ∧
      ∀ a, (∀ g, g < w.granules → copied g → a / 16 ≠ w.mapB.getD g 0) → t.pool.mem.read 0 a =
        if (c.high && c.goodHigh) = true ∧ a = granAddr w.mapA (trigger / 16) (trigger % 16 + 1) then highByte c.data
        else if (c.low && c.goodLow) = true ∧ a = granAddr w.mapA (trigger / 16) (trigger % 16) then lowByte c.data
        else s.pool.mem.read 0 a

/-- R46: a WRITE entry for window 0 puts the bytes of its enabled lanes into the window 0 image whatever their parity,
and flags the word when one of them is bad; away from offset 0 it does not touch the mailbox. -/
def Obligations.DrainWritesWindowZero : Prop :=
  ∀ (s : State) (c : Captured) (rest : List FifoEntry) (k : Nat), Draining s (.write c) rest → MemoryLaw s →
    c.win = 0 → 2 * c.addr.toNat = win0Base s.straps.mb + k →
    let bad := c.low && !c.goodLow || c.high && !c.goodHigh
    ∃ t : State, exec .drainStep s = .next t.arbitrate ∧ t.tap.fifo = s.fifoAfter rest ∧ t.places = s.fencesDown ∧
      t = { s with port := none, tap := t.tap, places := t.places, win0 := t.win0, mbox := t.mbox
                   status := t.status } ∧ t.win0.bad = (if bad then s.win0.bad.set (k / 2) true else s.win0.bad) ∧
      (∀ a, t.win0.mem.read 0 a =
        if c.high = true ∧ a = k + 1 then highByte c.data
        else if c.low = true ∧ a = k then lowByte c.data
        else s.win0.mem.read 0 a) ∧
      t.counter .parityErrors = s.counter .parityErrors +
        ((if c.low && !c.goodLow then 1 else 0) + (if c.high && !c.goodHigh then 1 else 0)) ∧
      (bad = true → s.status.record.getLsbD 5 = true → t.status.pending.getLsbD 5 = true) ∧
      (k ≠ 0 → t.mbox = s.mbox)

/-- R146, R148, R150: what a drained command-word write does to the mailbox in each of its states. That the response to a
command word of bad parity carries the notes as they stand is the model's choice, notes/assumptions/17.md. -/
def Obligations.CommandWordIsHandled : Prop :=
  ∀ (s : State) (c : Captured) (rest : List FifoEntry), Draining s (.write c) rest → MemoryLaw s → c.win = 0 →
    2 * c.addr.toNat = win0Base s.straps.mb →
    let value := joinBytes (if c.high then highByte c.data else s.win0.mem.read 0 1)
      (if c.low then lowByte c.data else s.win0.mem.read 0 0)
    let bad := c.low && !c.goodLow || c.high && !c.goodHigh
    let seen := if s.mbox.state = .ready then s.mbox else { s.mbox with
      state := .ready, prevCommand := s.mbox.response.echo, prevResult := s.mbox.response.result }
    ∃ t : State, exec .drainStep s = .next t.arbitrate ∧ t.win0Word 0 = value ∧
      t = { s with port := none, tap := t.tap, places := t.places, win0 := t.win0, mbox := t.mbox
                   status := t.status } ∧
      (s.mbox.state = .busy →
        t.mbox = if bad = true ∨ value ≠ 0 then { s.mbox with overrun := true } else s.mbox) ∧
      (s.mbox.state ≠ .busy →
        (bad = true → t.mbox = { seen with
          state := .fail, work := .none
          response := { result := .parity, echo := value, prevCommand := seen.prevCommand,
                        prevResult := seen.prevResult, overrun := seen.overrun, lostWrite := seen.lostWrite,
                        data := [0] } } ∧
          (s.status.record.getLsbD 11 = true → t.status.pending.getLsbD 11 = true)) ∧
        (bad = false → value = 0 → t.mbox = seen) ∧
        (bad = false → value ≠ 0 → t.mbox = { seen with
          state := .busy, code := value, work := .snapshot, overrun := false, lostWrite := false }))

/-- R151, with R45, R52: a LOSS entry makes the shadow of every LIVE PUBLISH window it names, with its fence passed, unknown.
Every granule of an ON_TRIGGER one becomes DIRTY. Every granule of an ON_WRITE one gets a change, IDLE or WANTED to WANTED, WAITING
as it was, in flight to IN_FLIGHT_AGAIN, and none of them a queue request: the journal stays. Other windows keep all but their
fences (R41). When it names window 0, the mailbox
fails with CAPTURE_LOST in READY, DONE and FAIL, after an acknowledgement in the last two, and takes a note in BUSY. That the
CAPTURE_LOST response carries both notes as they stand is the model's choice, notes/assumptions/17.md. -/
def Obligations.LossEntryIsApplied : Prop :=
  (∀ (s : State) (set : BitVec 32) (rest : List FifoEntry), Draining s (.loss set) rest →
     ∃ t : State, exec .drainStep s = .next t.arbitrate ∧ t.tap.fifo = s.fifoAfter rest ∧
       t = { s with port := none, tap := t.tap, places := t.places, mbox := t.mbox, status := t.status } ∧
       ∀ n, n ≠ 0 → t.win n = (s.win n).map fun w => { w with
         fence := w.fence - 1
         pub :=
           if set.getLsbD n.val = true ∧ w.state = .live ∧ w.isPublish = true ∧ w.fence = 0 then
             let lost := { w.pub with known := w.pub.known.map fun _ => false }
             if w.mode? = some .onWrite then { lost with states := w.pub.states.mapIdx fun g x =>
               if g < w.defn.length / 16 then match x with
                 | .idle | .wanted => .wanted
                 | .waiting => .waiting
                 | .inFlight | .inFlightAgain => .inFlightAgain
               else x }
             else { lost with dirty := w.pub.dirty.map fun _ => true }
           else w.pub }) ∧
  (∀ (s : State) (set : BitVec 32) (rest : List FifoEntry), Draining s (.loss set) rest →
     ∃ t : State, exec .drainStep s = .next t.arbitrate ∧
       (set.getLsbD 0 = false → t.mbox = s.mbox ∧ (s.tap.loss = 0 → t.status = s.status)) ∧
       (set.getLsbD 0 = true →
         (s.mbox.state = .busy → t.mbox = { s.mbox with lostWrite := true }) ∧
         (s.mbox.state = .ready → t.mbox = { s.mbox with
           state := .fail, work := .none
           response := { result := .captureLost, echo := 0, prevCommand := s.mbox.prevCommand,
                         prevResult := s.mbox.prevResult, overrun := s.mbox.overrun, lostWrite := s.mbox.lostWrite,
                         data := [] } }) ∧
         (s.mbox.state = .done ∨ s.mbox.state = .fail → t.mbox = { s.mbox with
           state := .fail, work := .none
           prevCommand := s.mbox.response.echo, prevResult := s.mbox.response.result
           response := { result := .captureLost, echo := 0, prevCommand := s.mbox.response.echo,
                         prevResult := s.mbox.response.result, overrun := s.mbox.overrun,
                         lostWrite := s.mbox.lostWrite, data := [] } }) ∧
         (s.mbox.state ≠ .busy → s.status.record.getLsbD 11 = true → t.status.pending.getLsbD 11 = true)))

/-- R44, R39, R43: a drain step that took a learning request and no entry fills the bytes still unknown of the request's lanes in
a LIVE PUBLISH shadow and counts them; a granule of an ON_WRITE window that becomes fully known gets a change; for any other
window the request is discarded. The step ends with it: an entry or a request that came since the step began stays where it is.
R39: a step that took a learning request and an entry applies the request first, then the entry. -/
def Obligations.LearningFillsUnknownBytes : Prop :=
  (∀ (s : State) (r : LearnRequest), s.port = some (.drain { learn := some r, entry := false }) → MemoryLaw s →
    ((∀ w, s.win r.win = some w → w.state ≠ .live ∨ w.isPublish = false) →
      exec .drainStep s = .next (State.arbitrate { s with port := none })) ∧
    ∀ w, s.win r.win = some w → w.state = .live → w.isPublish = true →
      let k := 2 * r.addr.toNat - w.defn.base
      let low := r.low && !w.pub.known.getD k false
      let high := r.high && !w.pub.known.getD (k + 1) false
      let known := if low then w.pub.known.set k true else w.pub.known
      let v := { w with pub := { w.pub with known := if high then known.set (k + 1) true else known } }
      ∃ mem, let u := { s with
          port := none, pool := { s.pool with mem := mem }
          places := s.places.set r.win (some v)
          status := { s.status with counters := s.status.counters.set 3 (s.status.counters[3] +
            ((if low then 1 else 0) + (if high then 1 else 0))) } }
        (∀ a, mem.read 0 a =
          if high = true ∧ a = granAddr w.mapA ((k + 1) / 16) ((k + 1) % 16) then highByte r.data
          else if low = true ∧ a = granAddr w.mapA (k / 16) (k % 16) then lowByte r.data
          else s.pool.mem.read 0 a) ∧
        exec .drainStep s = .next (State.arbitrate
          (if w.mode? = some .onWrite ∧ w.shadowKnown (k / 16) = false ∧ v.shadowKnown (k / 16) = true
           then u.change r.win (k / 16) else u))) ∧
  (∀ (s : State) (r : LearnRequest) (e : FifoEntry) (rest : List FifoEntry),
    s.port = some (.drain { learn := some r, entry := true }) → s.tap.fifo = e :: rest →
    ∃ u : State, u.port = none ∧ u.arbiter = s.arbiter ∧ u.tap = s.tap ∧
      exec .drainStep { s with port := some (.drain { learn := some r, entry := false }) } = .next u.arbitrate ∧
      exec .drainStep s = exec .drainStep { u with port := some (.drain { learn := none, entry := true }) })

/-- R47: an alert-clear write clears the pending bits its good lanes hold as 1, and raises and counts PARITY for each bad
lane; nothing else but the FIFO and the fences changes. That the clearing comes before the raising is the model's choice,
notes/assumptions/35.md. -/
def Obligations.AlertClearWrite : Prop :=
  ∀ (s : State) (c : Captured) (rest : List FifoEntry) (w : Window), Draining s (.write c) rest → s.tap.loss = 0 →
    c.win ≠ 0 → s.win c.win = some w → w.state = .live → w.fence = 0 → w.isStatus = true →
    2 * c.addr.toNat - w.defn.base = 0x30 →
    let bits : Word := joinBytes (if c.high && c.goodHigh then highByte c.data else 0)
      (if c.low && c.goodLow then lowByte c.data else 0)
    let bad := (if c.low && !c.goodLow then 1 else 0) + (if c.high && !c.goodHigh then 1 else 0)
    exec .drainStep s = .next (State.arbitrate { s with
      port := none, places := s.fencesDown, tap := { s.tap with fifo := rest }
      status := { s.status with
        pending := (s.status.pending &&& ~~~(bits.setWidth 12)) |||
          (if bad = 0 then 0 else s.status.record &&& 0x020)
        counters := s.status.counters.set 2 (s.status.counters[2] + BitVec.ofNat 32 bad) } })

/-! ### Mailbox commands -/

/-- R147: a code that names no command fails UNKNOWN_COMMAND; a parity-bad word of a command's parameter block fails
PARITY with the index of the lowest such word; the command has no other effect. R146: the snapshot's grant ends with it, and
the command's checks and effect are those on the snapshot. R148: a command that fails a check or completes at once does so at the
end of that grant. The model's choices (notes/assumptions/12.md): the command's own row takes a snapshot still under way, and so does
the row of another unit that comes first: the command is then carried out as its own row would have it, a DISW that passes its
checks apart, and the other unit has its operation when the port is granted to it. -/
def Obligations.ChecksBeforeTheCommand : Prop :=
  ∀ s : State,
    (∀ code, CommandDue code s → code ∉ [0xA101, 0xA102, 0xA103, 0xA104, 0xA105, 0xA106, 0xA107, 0xA201, 0xA202,
        0xA203, 0xA204, 0xA205, 0xA206, 0xA301, 0xA302, 0xA401, 0xA402, 0xA501, 0xA5FF] →
      exec .unknownCommand s = .next (State.arbitrate (s.answered .unknownCommand []))) ∧
    (∀ c code words k, (c, code, words) ∈ [(.setw, 0xA101, 16), (.enbw, 0xA102, 1), (.disw, 0xA103, 1),
        (.delw, 0xA104, 1), (.qryw, 0xA105, 1), (.push, 0xA106, 1), (.peek, 0xA107, 4), (.setid, 0xA201, 14),
        (.cntr, 0xA301, 1), (Instr.alrt, (0xA302 : Word), 4)] ∨
        (c = .testMinor1 ∧ s.win0Word 1 ≠ 2 ∨ c = .testMinor2 ∧ s.win0Word 1 ≠ 1) ∧ code = 0xA501 ∧ words = 1 →
      CommandDue code s → 1 ≤ k → k ≤ words → s.win0.bad.getD k false = true → GoodParams (k - 1) s →
      exec c s = .next (State.arbitrate (s.answered .parity [BitVec.ofNat 8 k]))) ∧
    (∀ c code, (c, code) ∈ [(.setw, 0xA101), (.enbw, 0xA102), (.disw, 0xA103), (.delw, 0xA104), (.qryw, 0xA105),
        (.push, 0xA106), (.peek, 0xA107), (.setid, 0xA201), (.join, 0xA202), (.leave, 0xA203), (.hold, 0xA204),
        (.resume, 0xA205), (.nbrs, 0xA206), (.cntr, 0xA301), (.alrt, 0xA302), (.psav, 0xA401), (.plod, 0xA402),
        (Instr.rset, (0xA5FF : Word))] ∨
        (c = .testMinor1 ∧ s.win0Word 1 ≠ 2 ∨ c = .testMinor2 ∧ s.win0Word 1 ≠ 1) ∧ code = 0xA501 →
      CommandDue code s → exec c s = exec c (s.snapped .checks)) ∧
    (∀ c code t, (c, code) ∈ [(.setw, 0xA101), (.enbw, 0xA102), (.disw, 0xA103), (.delw, 0xA104), (.qryw, 0xA105),
        (.push, 0xA106), (.peek, 0xA107), (.setid, 0xA201), (.join, 0xA202), (.leave, 0xA203), (.hold, 0xA204),
        (.resume, 0xA205), (.nbrs, 0xA206), (.cntr, 0xA301), (.alrt, 0xA302), (.psav, 0xA401), (.plod, 0xA402),
        (Instr.rset, (0xA5FF : Word))] ∨
        (c = .testMinor1 ∧ s.win0Word 1 ≠ 2 ∨ c = .testMinor2 ∧ s.win0Word 1 ≠ 1) ∧ code = 0xA501 ∨
        c = .unknownCommand ∧ code ∉ [0xA101, 0xA102, 0xA103, 0xA104, 0xA105, 0xA106, 0xA107, 0xA201, 0xA202, 0xA203, 0xA204,
          0xA205, 0xA206, 0xA301, 0xA302, 0xA401, 0xA402, 0xA501, 0xA5FF] →
      CommandDue code s → exec c s = .next t →
      let u := if code = 0xA103 ∧ t.mbox.state = .busy then (s.snapped .checks).arbitrate else t
      ((∃ d, u.port = some (.drain d)) → exec .drainStep s = exec .drainStep u) ∧
      (u.port = some .frame → exec .recordRead s = exec .recordRead u) ∧
      ((∀ d, u.port ≠ some (.drain d)) → exec .drainStep s = .next s.arbitrate) ∧
      (u.port ≠ some .frame → exec .recordRead s = .next s.arbitrate))

/-- R153, R154, R155: the window commands change nothing but the mailbox when they refuse. Word 1 no window 1 to 31 is
BAD_PARAM, and a place not in the state the command needs WINDOW_STATE. SETW's checks come in the order of R23: number,
place, kind, base, length, overlap, topic, the kind's fields; a definition that meets every check but the pool's room fails
NO_ROOM or IMAGE_FAULT. That BAD_PARAM names word 3 for the base, which words 3 and 4 hold, and the first of the kind's fields
in the order of their words, is the model's choice, notes/assumptions/13.md. -/
def Obligations.WindowCommandsRefuse : Prop :=
  (∀ s : State, GoodParams 1 s →
     (∀ c code, (c, code) ∈ [(.enbw, 0xA102), (.disw, 0xA103), (.delw, 0xA104), (.qryw, 0xA105),
         (Instr.push, (0xA106 : Word))] → CommandDue code s → s.word 1 = 0 ∨ 31 < s.word 1 →
       exec c s = .next (State.arbitrate (s.answered .badParam [1]))) ∧
     ∀ n : WinNo, n ≠ 0 → s.word 1 = n.val →
       (∀ c code, (c, code) ∈ [(.enbw, 0xA102), (Instr.delw, (0xA104 : Word))] → CommandDue code s →
         (∀ w, s.win n = some w → w.state ≠ .idle) → exec c s = .next (State.arbitrate (s.answered .windowState []))) ∧
       (CommandDue 0xA103 s → (∀ w, s.win n = some w → w.state ≠ .live) →
         exec .disw s = .next (State.arbitrate (s.answered .windowState [])))) ∧
  (∀ s : State, CommandDue 0xA101 s → GoodParams 16 s →
     (s.word 1 = 0 ∨ 31 < s.word 1 → exec .setw s = .next (State.arbitrate (s.answered .badParam [1]))) ∧
     ∀ n : WinNo, n ≠ 0 → s.word 1 = n.val →
       (∀ w, s.win n = some w → w.state ≠ .idle → exec .setw s = .next (State.arbitrate (s.answered .windowState []))) ∧
       ((∀ w, s.win n = some w → w.state = .idle) →
         let badKind := s.word 2 = 0 ∨ 3 < s.word 2 ∨
           s.word 2 = 3 ∧ ∃ m w, m ≠ 0 ∧ m ≠ n ∧ s.win m = some w ∧ w.isStatus = true
         let badBase := s.word 3 % 16 ≠ 0
         let base := s.word 3 + 0x10000 * s.word 4
         let len := s.word 5
         let badLength := len % 16 ≠ 0 ∨ len < 16 ∨ 4096 < len ∨ (s.word 2 = 3 ∧ len ≠ 64) ∨ 0x1000000 < base + len
         let meets := fun b l => base < b + l ∧ b < base + len
         let inside0 := meets (win0Base s.straps.mb) 256
         let insideAny := ∃ m w, m ≠ 0 ∧ m ≠ n ∧ s.win m = some w ∧ meets w.defn.base w.defn.length
         let badTopic := s.word 2 ≠ 3 ∧ (s.word 6 = 0 ∨ 1023 < s.word 6)
         let holds := fun (m : WinNo) => m ≠ 0 ∧ m ≠ n ∧ ∃ w, s.win m = some w ∧
           (s.word 2 = 1 ∧ (∃ p, w.defn.body = .publish p ∧ p.topic = s.word 6) ∨
            s.word 2 = 2 ∧ ∃ d, w.defn.body = .subscribe d ∧ d.topic = s.word 6)
         (badKind → exec .setw s = .next (State.arbitrate (s.answered .badParam [2]))) ∧
         (¬ badKind → badBase → exec .setw s = .next (State.arbitrate (s.answered .badParam [3]))) ∧
         (¬ badKind → ¬ badBase → badLength → exec .setw s = .next (State.arbitrate (s.answered .badParam [5]))) ∧
         (¬ badKind → ¬ badBase → ¬ badLength →
           (inside0 → exec .setw s = .next (State.arbitrate (s.answered .overlap [0]))) ∧
           (¬ inside0 → ∀ m w, m ≠ 0 → m ≠ n → s.win m = some w → meets w.defn.base w.defn.length →
             (∀ j x, j ≠ 0 → j ≠ n → j < m → s.win j = some x → ¬ meets x.defn.base x.defn.length) →
             exec .setw s = .next (State.arbitrate (s.answered .overlap [BitVec.ofNat 8 m.val]))) ∧
           (¬ inside0 → ¬ insideAny →
             (badTopic → exec .setw s = .next (State.arbitrate (s.answered .badParam [6]))) ∧
             (¬ badTopic → ∀ m, holds m → (∀ j, j < m → ¬ holds j) →
               exec .setw s = .next (State.arbitrate (s.answered .topicInUse [BitVec.ofNat 8 m.val]))) ∧
             (¬ badTopic → (∀ m, ¬ holds m) → ∀ k, s.fieldBad k → (∀ i, i < k → ¬ s.fieldBad i) →
               exec .setw s = .next (State.arbitrate (s.answered .badParam [BitVec.ofNat 8 k]))))))) ∧
  (∀ s : State, CommandDue 0xA101 s → GoodParams 16 s →
     ∀ (n : WinNo) (d : Definition), n ≠ 0 → (∀ w, s.win n = some w → w.state = .idle) → Spells s n d →
       d.rangeOk s.straps.mb → d.fieldsOk →
       (∀ m w, m ≠ n → s.win m = some w → d.apart w.defn ∧ d.body.clashes w.defn.body = false) →
       let room := s.pool.free.length + (s.heldBy n).length
       room < d.cost → exec .setw s = .next (State.arbitrate (if s.pool.usable then
         s.answered .noRoom (twoBytes d.cost ++ twoBytes room) else s.answered .imageFault [])))

/-- R153, R28, R27: SETW installs a definition that fits, in one step: the old granules go to the tail of the free list,
the cost comes from its head, the place is IDLE with every flag clear; a STATUS definition completes at once, and for
any other the granules are still to be cleared. The model's choices (notes/assumptions/14.md): entry fence and publication
states of the new window before its granules are cleared, and the order of the clearing, first image first and ascending. -/
def Obligations.SetwInstalls : Prop :=
  ∀ (s : State) (n : WinNo) (d : Definition), CommandDue 0xA101 s → GoodParams 16 s → n ≠ 0 →
    (∀ w, s.win n = some w → w.state = .idle) → Spells s n d → Fits s n d →
    let free := s.pool.free ++ s.heldBy n
    let data := twoBytes d.cost ++ twoBytes (free.length - d.cost)
    d.cost = (match d.body with
      | .publish p => if p.mode = .onWrite then d.length / 16 else 2 * (d.length / 16)
      | .subscribe b => if b.group = 0 then d.length / 16 else 2 * (d.length / 16)
      | .status => 0) ∧
    ∃ v, v.state = .idle ∧ v.defn = d ∧ v.mapA = (free.take d.cost).take (d.length / 16) ∧
      v.mapB = (free.take d.cost).drop (d.length / 16) ∧ v.fence = 0 ∧
      (∀ b ∈ v.pub.known ++ v.pub.dirty ++ v.pub.filled ++ v.ov.present ++ v.ov.staged, b = false) ∧
      (∀ x ∈ v.pub.states, x = .idle) ∧
      let u := { s with pool := { s.pool with free := free.drop d.cost }, places := s.places.set n (some v) }
      exec .setw s = .next (State.arbitrate (if d.cost = 0 then u.answered .ok data
        else u.snapped (.clearing ((List.range v.mapA.length).map (fun g => ⟨n, false, g⟩) ++
          (List.range v.mapB.length).map (fun g => ⟨n, true, g⟩)) data)))

/-- R28, R26, R148, R153: one grant of GRANULE_CLEAR zeroes one granule and clears all its flags, by the image it belongs to:
known flags, DIRTY flag, filled flag, publication state, present flag or staged flag; everything else of the window is as it was.
After the last granule the command completes DONE with its data, else the next one waits. -/
def Obligations.GranuleIsCleared : Prop :=
  ∀ (s : State) (c : ClearItem) (rest : List ClearItem) (data : List Byte) (w : Window),
    s.port = some .mailbox → s.mbox.work = .clearing (c :: rest) data → s.win c.win = some w → MemoryLaw s →
    ∃ pool v, exec .granuleClear s = .next
        (State.arbitrate (let u := { s with port := none, pool := pool, places := s.places.set c.win (some v) }
         if rest = [] then u.completed .ok data else { u with mbox := { u.mbox with work := .clearing rest data } })) ∧
      pool.free = s.pool.free ∧ pool.usable = s.pool.usable ∧
      GranuleFilled s.pool.mem pool.mem ((if c.second then w.mapB else w.mapA).getD c.gran 0) (fun _ => 0) ∧
      (c.second = false → w.isPublish = true → v.pub.known.length = w.pub.known.length ∧
        ∀ i, v.pub.known.getD i false = (w.pub.known.getD i false && decide (i / 16 ≠ c.gran))) ∧
      (c.second = false → w.mode? = some .onWrite → v = { w with pub := { w.pub with
        known := v.pub.known, states := w.pub.states.set c.gran .idle } }) ∧
      (c.second = false → ∀ trigger, w.mode? = some (.onTrigger trigger) → v = { w with pub := { w.pub with
        known := v.pub.known, dirty := w.pub.dirty.set c.gran false } }) ∧
      (c.second = true → w.isPublish = true → v = { w with pub := { w.pub with
        filled := w.pub.filled.set c.gran false, states := w.pub.states.set c.gran .idle } }) ∧
      (w.isPublish = false → c.second = w.ov.swapped → v = { w with ov := { w.ov with
        present := w.ov.present.set c.gran false } }) ∧
      (w.isPublish = false → c.second ≠ w.ov.swapped → v = { w with ov := { w.ov with
        staged := w.ov.staged.set c.gran false } })

/-- R30, R154: ENBW makes an IDLE window PENDING and stays BUSY. R32, R84: DISW makes a LIVE window CLOSING, empties the
staging of its group and stays BUSY; images and every other window keep all but their staged flags. -/
def Obligations.EnableAndDisable : Prop :=
  ∀ (s : State) (n : WinNo) (w : Window), GoodParams 1 s → n ≠ 0 → s.word 1 = n.val → s.win n = some w →
    (CommandDue 0xA102 s → w.state = .idle → exec .enbw s = .next
      (State.arbitrate ({ s with places := s.places.set n (some { w with state := .pending }) }.snapped (.enbw n)))) ∧
    (CommandDue 0xA103 s → w.state = .live → w.group = 0 → exec .disw s = .next
      (State.arbitrate ({ s with places := s.places.set n (some { w with state := .closing }) }.snapped (.disw n)))) ∧
    (CommandDue 0xA103 s → w.state = .live → w.group ≠ 0 → ∃ t : State, exec .disw s = .next t.arbitrate ∧
      t = { s.snapped (.disw n) with places := t.places, groups := t.groups, status := t.status } ∧
      t.win n = some { w with
        state := .closing, ov := { w.ov with staged := w.ov.staged.map fun _ => false } } ∧
      (∀ m v, m ≠ n → s.win m = some v → t.win m = some (if v.group = w.group then
        { v with ov := { v.ov with staged := v.ov.staged.map fun _ => false } } else v)) ∧
      (∀ m, s.win m = none → t.win m = none) ∧
      (∀ g, t.groups[g] = if g = w.group then { s.groups[g] with staging := none, age := 0 } else s.groups[g]) ∧
      (s.groups[w.group].staging = none → t.status = s.status) ∧
      (s.groups[w.group].staging.isSome = true → t.status = { s.status with
        counters := s.status.counters.set 16 (s.status.counters[16] + 1)
        pending := s.status.pending ||| (s.status.record &&& 0x100) }))

/-- R34: DELW of an IDLE window frees the place, appends its granules to the free list and completes DONE with the free
count; in any other state it is refused without a change. -/
def Obligations.DelwFreesThePlace : Prop :=
  ∀ (s : State) (n : WinNo), CommandDue 0xA104 s → GoodParams 1 s → n ≠ 0 → s.word 1 = n.val →
    (∀ w, s.win n = some w → w.state = .idle →
      let free := s.pool.free ++ (w.mapA ++ w.mapB)
      exec .delw s = .next (State.arbitrate ({ s with pool := { s.pool with free := free }, places := s.places.set n none }.answered
        .ok (twoBytes free.length)))) ∧
    (∀ w, s.win n = some w → w.state ≠ .idle → exec .delw s = .next (State.arbitrate (s.answered .windowState []))) ∧
    (s.win n = none → exec .delw s = .next (State.arbitrate (s.answered .windowState [])))

/-- R55: PUSH gives every fully known or filled granule of a LIVE PUBLISH window a change, in ascending order, completes
DONE with their number, and leaves countdown, revision, shadow and snapshot as they were; for any other window it changes
nothing and fails. -/
def Obligations.PushGivesChanges : Prop :=
  ∀ (s : State) (n : WinNo), CommandDue 0xA106 s → GoodParams 1 s → n ≠ 0 → s.word 1 = n.val →
    (∀ w, s.win n = some w → w.state = .live → w.isPublish = true →
      let gs := (List.range (w.defn.length / 16)).filter fun g => w.fullyKnown g
      let u := gs.foldl (fun t g => t.change n g) (s.snapped .none)
      exec .push s = .next (State.arbitrate (u.completed .ok (twoBytes gs.length))) ∧ u.pool = s.pool ∧
        ∃ v, u.win n = some v ∧ v.pub.countdown = w.pub.countdown ∧ v.pub.revision = w.pub.revision ∧
          v.pub.known = w.pub.known ∧ v.pub.dirty = w.pub.dirty ∧ v.pub.filled = w.pub.filled ∧ v.state = .live) ∧
    (∀ w, s.win n = some w → w.state = .live → w.isPublish = false →
      exec .push s = .next (State.arbitrate (s.answered .badParam [1]))) ∧
    ((∀ w, s.win n = some w → w.state ≠ .live) → exec .push s = .next (State.arbitrate (s.answered .windowState [])))

/-- R155, R176: what QRYW reports for a place, byte by byte, and NBRS for the neighbour entries, eight bytes each in
ascending node number, with nothing else changed. -/
def Obligations.QrywAndNbrsReport : Prop :=
  (∀ (s : State) (n : WinNo), CommandDue 0xA105 s → GoodParams 1 s → n ≠ 0 → s.word 1 = n.val →
     (s.win n = none → exec .qryw s = .next (State.arbitrate (s.answered .ok [0]))) ∧
     ∀ w, s.win n = some w →
       let st : Byte := match w.state with
         | .idle => 1 | .pending => 2 | .live => 3 | .closing => 4
       let bit := fun b : Bool => if b then (1 : Byte) else 0
       (w.defn.body = .status → exec .qryw s = .next (State.arbitrate (s.answered .ok [st, 3]))) ∧
       (∀ p, w.defn.body = .publish p →
         let es := s.journal.entries.filter fun e => decide (e.win = n)
         let countdown := if (w.state = .live ∨ w.state = .closing) ∧ p.refresh ≠ 0 then w.pub.countdown else 0
         exec .qryw s = .next (State.arbitrate (s.answered .ok ([st, 1] ++
           twoBytes (w.pub.states.count .idle) ++ twoBytes (w.pub.states.count .wanted) ++
           twoBytes (w.pub.states.count .waiting) ++ twoBytes (w.pub.states.count .inFlight) ++
           twoBytes (w.pub.states.count .inFlightAgain) ++
           twoBytes ((List.range (w.defn.length / 16)).countP fun g => !w.shadowKnown g) ++
           twoBytes w.pub.revision.toNat ++
           [bit w.pub.backlog, BitVec.ofNat 8 countdown, BitVec.ofNat 8 es.length, 0] ++
           (es.take 16).flatMap fun e => [BitVec.ofNat 8 e.first, BitVec.ofNat 8 e.last, bit e.seq.isSome,
             BitVec.ofNat 8 e.attempts, BitVec.ofNat 8 e.age])))) ∧
       (∀ d, w.defn.body = .subscribe d →
         let ov : Byte := match w.ov.state with
           | .empty => 0 | .fresh => 1 | .expired => 2
         let rev := if d.group = 0 then w.ov.revision else s.groups[d.group].revision
         let staging := s.groups[d.group].staging
         let word := fun r : Option Word => twoBytes (r.getD 0).toNat
         exec .qryw s = .next (State.arbitrate (s.answered .ok ([st, 2, ov, bit rev.isSome] ++ word rev ++
           [BitVec.ofNat 8 w.ov.age, 0] ++ twoBytes (w.ov.present.count true) ++
           if d.group = 0 then [] else
             twoBytes (w.ov.staged.count true) ++ [bit staging.isSome, 0] ++ word staging))))) ∧
  (∀ s : State, CommandDue 0xA206 s → ∃ l : List Neighbour, l.Perm s.link.table ∧
     l.Pairwise (fun a b => a.node ≤ b.node) ∧
     exec .nbrs s = .next (State.arbitrate (s.answered .ok (BitVec.ofNat 8 s.link.table.length :: l.flatMap fun e =>
       [BitVec.ofNat 8 e.node, BitVec.ofNat 8 e.phase, BitVec.ofNat 8 e.score, BitVec.ofNat 8 e.misses,
         BitVec.ofNat 8 ((if e.heard then 1 else 0) + (if e.accepting then 2 else 0) + (if e.closing then 4 else 0)),
         BitVec.ofNat 8 e.sample,
         (match e.role with | .none => 0 | .serving => 1 | .target => 2),
         BitVec.ofNat 8 e.bar]))))

/-- R156, R176: PEEK's checks in order and the granules it then reads, in ascending order, one for each grant, bytes and
flags together; after the last one the command completes DONE with the bytes and then the flags. Which word a range that
does not fit names, 3 or 4, is the model's choice (notes/assumptions/13.md) and is left open here. -/
def Obligations.PeekReadsAnImage : Prop :=
  (∀ s : State, CommandDue 0xA107 s → GoodParams 4 s →
     (s.word 1 = 0 ∨ 31 < s.word 1 → exec .peek s = .next (State.arbitrate (s.answered .badParam [1]))) ∧
     ∀ n : WinNo, n ≠ 0 → s.word 1 = n.val →
       (s.win n = none → exec .peek s = .next (State.arbitrate (s.answered .windowState []))) ∧
       ∀ w, s.win n = some w →
         let holds := s.word 2 = 0 ∧ w.isPublish = true ∨
           s.word 2 = 1 ∧ (∃ k, w.mode? = some (.onTrigger k)) ∨
           s.word 2 = 2 ∧ w.sub?.isSome = true ∨
           s.word 2 = 3 ∧ (∃ d, w.defn.body = .subscribe d ∧ d.group ≠ 0)
         let offset := s.word 3
         let length := s.word 4
         (¬ holds → exec .peek s = .next (State.arbitrate (s.answered .badParam [2]))) ∧
         (holds → offset % 16 = 0 → length = 16 ∨ length = 32 ∨ length = 48 ∨ length = 64 →
           offset + length ≤ w.defn.length →
           exec .peek s = .next (State.arbitrate (s.snapped (.peek
             { win := n, image := s.word 2
               todo := (List.range (length / 16)).map fun i => offset / 16 + i, bytes := [], flags := [] })))) ∧
         (holds → offset % 16 ≠ 0 ∨ ¬ (length = 16 ∨ length = 32 ∨ length = 48 ∨ length = 64) ∨
             w.defn.length < offset + length →
           ∃ k : Byte, (k = 3 ∨ k = 4) ∧ exec .peek s = .next (State.arbitrate (s.answered .badParam [k])))) ∧
  (∀ (s : State) (j : PeekJob) (w : Window) (g : Nat) (rest : List Nat),
     s.port = some .mailbox → s.mbox.work = .peek j → s.win j.win = some w → j.todo = g :: rest →
     ∀ (map : List Nat) (flags : List Bool),
     (j.image = 0 ∧ w.isPublish = true ∧ map = w.mapA ∧
         flags = (List.range 16).map (fun i => w.pub.known.getD (16 * g + i) false) ∨
       j.image = 1 ∧ (∃ k, w.mode? = some (.onTrigger k)) ∧ map = w.mapB ∧ flags = [w.pub.filled.getD g false] ∨
       j.image = 2 ∧ w.sub?.isSome = true ∧ map = (if w.ov.swapped then w.mapB else w.mapA) ∧
         flags = [w.ov.present.getD g false] ∨
       j.image = 3 ∧ (∃ d, w.defn.body = .subscribe d ∧ d.group ≠ 0) ∧
         map = (if w.ov.swapped then w.mapA else w.mapB) ∧ flags = [w.ov.staged.getD g false]) →
     let bytes := j.bytes ++ (List.range 16).map fun i => s.pool.mem.read 0 (16 * map.getD g 0 + i)
     let u := { s with port := none }
     (rest ≠ [] → exec .peekGranuleRead s = .next (State.arbitrate { u with mbox := { u.mbox with
       work := .peek { j with todo := rest, bytes := bytes, flags := j.flags ++ flags } } })) ∧
     (rest = [] → ∃ f, exec .peekGranuleRead s = .next (State.arbitrate (u.completed .ok (bytes ++ f))) ∧
       (j.image ≠ 0 → f.length = 1) ∧ (j.image = 0 → f.length = (j.flags ++ flags).length / 8) ∧
       ∀ i, i < 8 * f.length → i < (j.flags ++ flags).length →
         (f.getD (i / 8) 0).getLsbD (i % 8) = (j.flags ++ flags).getD i false))

/-- R157, R121: SETID with the link OFF and every word in its range sets car number and parameters in one step and
reseeds the shift register; with a word out of range it fails BAD_PARAM at the first; with the link on it fails
LINK_STATE. -/
def Obligations.SetidSetsIdentity : Prop :=
  ∀ s : State, CommandDue 0xA201 s → GoodParams 14 s →
    (s.link.state ≠ .off → exec .setid s = .next (State.arbitrate (s.answered .linkState []))) ∧
    (s.link.state = .off → ∀ k, 1 ≤ k → k ≤ 14 → ¬ SetidRange k (s.word k) →
      (∀ i, 1 ≤ i → i < k → SetidRange i (s.word i)) →
      exec .setid s = .next (State.arbitrate (s.answered .badParam [BitVec.ofNat 8 k]))) ∧
    (s.link.state = .off → (∀ k, 1 ≤ k → k ≤ 14 → SetidRange k (s.word k)) →
      exec .setid s = .next (State.arbitrate ({ s with
        params := { f := s.word 2, s := s.word 3, w := s.word 4, p := s.word 5, d := s.word 6, u := s.word 7,
                    hm := s.word 8, k := s.word 9, ls := s.word 10, hl := s.word 11, kp := s.word 12,
                    ki := s.word 13, lam := s.word 14 }
        link := { s.link with
          car := s.word 1
          lfsr := if s.word 1 = 0 then 0x0101 else BitVec.ofNat 16 (257 * s.word 1) } }.answered .ok [])))

/-- R118, R130, R157: JOIN from OFF with a car number takes the link to STARTING and stays BUSY; without one it fails
NO_IDENTITY, and with the link on LINK_STATE. LEAVE with the link OFF completes at once; else it is held pending, clears
the auto-join flag (R169) and stays BUSY. HOLD and RESUME set and clear the HOLD flag and complete at once. That LEAVE becomes
pending and clears the flag at its snapshot's row is the model's reading, notes/assumptions/19.md. -/
def Obligations.JoinLeaveHoldAndResume : Prop :=
  (∀ s : State, CommandDue 0xA202 s →
     (s.link.state ≠ .off → exec .join s = .next (State.arbitrate (s.answered .linkState []))) ∧
     (s.link.state = .off → s.link.car = 0 → exec .join s = .next (State.arbitrate (s.answered .noIdentity []))) ∧
     (s.link.state = .off → 1 ≤ s.link.car → s.link.car ≤ 127 → exec .join s = .next
       (State.arbitrate ({ s with link := { s.link with state := .starting, startCount := 0, lock := false } }.snapped .join)))) ∧
  (∀ s : State, CommandDue 0xA203 s →
     (s.link.state = .off → exec .leave s = .next (State.arbitrate (s.answered .ok []))) ∧
     (s.link.state ≠ .off → exec .leave s = .next
       (State.arbitrate ({ s with link := { s.link with leave := true, autoJoin := false } }.snapped .leave)))) ∧
  (∀ s : State,
     (CommandDue 0xA204 s →
       exec .hold s = .next (State.arbitrate ({ s with journal := { s.journal with hold := true } }.answered .ok []))) ∧
     (CommandDue 0xA205 s →
       exec .resume s = .next (State.arbitrate ({ s with journal := { s.journal with hold := false } }.answered .ok []))))

/-- R158, R176: CNTR reports the 24 counters and the peak, and with the clear flag clears them in the same step. ALRT
replaces the enable sets and the auto-clear flag and clears the pending bits it names, in one step. That ALRT reports the
pending set before its own MAILBOX_DONE is the model's choice, notes/assumptions/18.md, and so is that it names the first word
out of range in ascending order, notes/assumptions/13.md. R165: ALERT# is low exactly while a condition is both pending and
signal-enabled. -/
def Obligations.CountersAndAlertSets : Prop :=
  (∀ s : State, s.alertLow = true ↔
    ∃ i, i < 12 ∧ s.status.pending.getLsbD i = true ∧ s.status.signal.getLsbD i = true) ∧
  (∀ s : State, CommandDue 0xA301 s → GoodParams 1 s →
     let data := (s.status.counters.toList.flatMap fun c => (List.range 4).map fun i =>
       BitVec.ofNat 8 (c.toNat / 256 ^ i)) ++ [BitVec.ofNat 8 s.tap.peak, 0]
     (s.word 1 = 0 → exec .cntr s = .next (State.arbitrate (s.answered .ok data))) ∧
     (s.word 1 = 1 → exec .cntr s = .next (State.arbitrate ({ s with
       status := { s.status with counters := Vector.replicate 24 0 }
       tap := { s.tap with peak := s.tap.fifo.length } }.answered .ok data))) ∧
     (1 < s.word 1 → exec .cntr s = .next (State.arbitrate (s.answered .badParam [1])))) ∧
  (∀ s : State, CommandDue 0xA302 s → GoodParams 4 s →
     (s.word 1 < 4096 → s.word 2 < 4096 → s.word 3 ≤ 1 → s.word 4 < 4096 →
       let pending := s.status.pending &&& ~~~(BitVec.ofNat 12 (s.word 4))
       exec .alrt s = .next (State.arbitrate ({ s with status := { s.status with
         record := BitVec.ofNat 12 (s.word 1), signal := BitVec.ofNat 12 (s.word 2)
         autoClear := decide (s.word 3 = 1), pending := pending } }.answered .ok (twoBytes pending.toNat)))) ∧
     (4096 ≤ s.word 1 → exec .alrt s = .next (State.arbitrate (s.answered .badParam [1]))) ∧
     (s.word 1 < 4096 → 4096 ≤ s.word 2 → exec .alrt s = .next (State.arbitrate (s.answered .badParam [2]))) ∧
     (s.word 1 < 4096 → s.word 2 < 4096 → 1 < s.word 3 → exec .alrt s = .next (State.arbitrate (s.answered .badParam [3]))) ∧
     (s.word 1 < 4096 → s.word 2 < 4096 → s.word 3 ≤ 1 → 4096 ≤ s.word 4 →
       exec .alrt s = .next (State.arbitrate (s.answered .badParam [4]))))

/-- R170, R169, R181: PSAV takes a profile and makes the store condition INVALID; when the store then reads back as
written, the command completes DONE, and the store is judged VALID and holds the car number, parameters, enable sets and flags that
the part held when PSAV was taken, and the definitions of its windows in every field that their kinds hold. A VALID store reads as
the bytes at the offsets of R181 say, each definition from its 24 bytes. The model's choices: the contents are taken at the
snapshot's row (notes/assumptions/19.md), and bytes that nothing fixes are free values (notes/assumptions/8.md). -/
def Obligations.SavedProfileReadsBack : Prop :=
  (∀ (s : State) (m : Memory) (p : Profile), s.store = .holds m → s.storedProfile = some p →
    let byte := fun i => m.stored i 1
    p = { car := byte 3
          params := { f := byte 4, s := byte 5, w := byte 6, p := byte 7, d := byte 8, u := byte 9, hm := byte 10, k := byte 11
                      ls := byte 12, hl := byte 13, kp := byte 14, ki := byte 15, lam := m.stored 16 2 }
          record := BitVec.ofNat 12 (m.stored 18 2), signal := BitVec.ofNat 12 (m.stored 20 2)
          autoClear := decide (byte 22 = 1), autoJoin := decide (byte 23 = 1)
          defns := (List.range (byte 24)).map m.definition }) ∧
  ∀ s : State, CommandDue 0xA401 s → (∀ k, 2 ≤ k → k ≤ 14 →
      SetidRange k ([s.params.f, s.params.s, s.params.w, s.params.p, s.params.d, s.params.u, s.params.hm, s.params.k,
        s.params.ls, s.params.hl, s.params.kp, s.params.ki, s.params.lam].getD (k - 2) 0)) → s.link.car ≤ 127 →
    let defined := (List.finRange 32).filter fun n => decide (n ≠ 0) && (s.win n).isSome
    ∃ profile m, ∃ t u : State, ∃ p, exec .psav s = .next t ∧
      t = ({ s with status := { s.status with store := .invalid }, freeCount := t.freeCount }.snapped
        (.psav profile)).arbitrate ∧
      profile.length = 27 + 24 * defined.length ∧
      exec (.profileWriteEnd profile) t = .next u ∧
      u.store = .holds m ∧ (∀ i, m.read 0xFF i = profile.getD i 0xFF) ∧
      u = ({ t with store := u.store, status := { t.status with store := .valid } }.completed .ok
        (twoBytes profile.length ++ [BitVec.ofNat 8 defined.length])).arbitrate ∧
      u.judgeStore = .valid ∧ u.storedProfile = some p ∧ p.car = s.link.car ∧ p.params = s.params ∧
      p.record = s.status.record ∧ p.signal = s.status.signal ∧ p.autoClear = s.status.autoClear ∧
      p.autoJoin = s.link.autoJoin ∧ p.defns = (List.range defined.length).map m.definition ∧
      ∀ i n w, defined[i]? = some n → s.win n = some w → (m.definition i).Tells n w.defn

/-- R170: the store condition stays INVALID and PSAV fails PROFILE_WRITE when the read-back differs or the time passes
first; the running part is not changed. The model's choices: a row says when the 300 ms have passed (notes/assumptions/6.md),
and a free value says whether the store is then as it was, torn, or whole (notes/assumptions/8.md). -/
def Obligations.FailedProfileWrite : Prop :=
  ∀ (s : State) (profile readBack : List Byte), s.mbox.work = .psav profile →
    (readBack ≠ profile → ∃ m, exec (.profileWriteEnd readBack) s = .next
      (State.arbitrate ({ s with store := .holds m }.completed .profileWrite [])) ∧
      ∀ i, m.read 0xFF i = readBack.getD i 0xFF) ∧
    ∃ store, (store = s.store ∨ store = .torn ∨ store = Store.ofBytes profile) ∧
      exec .profileWriteTimeout s = .next (State.arbitrate
        ({ s with store := store, freeCount := s.freeCount + 1 }.completed .profileWrite []))

/-- R159, R171, R176, R25, R84: PLOD's checks in order, with nothing else changed when one fails. It then replaces identity,
parameters, enable sets and flags by the stored profile's, and touches neither the pending set nor the link state; every place
becomes FREE, its granules returned, and every group's state absent; the profile's definitions are installed one at a time in
order of window number, each tested against R23 with those already installed. The response data are the number installed and
the set refused. The granules are then cleared in the order of the places, or the command completes when there are none. The
model's choices: the row holds checks and installation (notes/assumptions/19.md), the granules of the places freed together join
the free list in ascending window number (notes/assumptions/39.md), and the installed windows' granules are cleared in ascending
order (notes/assumptions/14.md). -/
def Obligations.PlodChecksAndInstalls : Prop :=
  (∀ s : State, CommandDue 0xA402 s →
     (s.someInUse → exec .plod s = .next (State.arbitrate (s.answered .windowState []))) ∧
     (¬ s.someInUse → s.link.state ≠ .off → exec .plod s = .next (State.arbitrate (s.answered .linkState []))) ∧
     (¬ s.someInUse → s.link.state = .off → s.status.store ≠ .valid →
       exec .plod s = .next (State.arbitrate (s.answered .profileInvalid [])))) ∧
  (∀ (s : State) (p : Profile), CommandDue 0xA402 s → ¬ s.someInUse → s.link.state = .off → s.status.store = .valid →
     s.storedProfile = some p →
     ∃ places order, ∃ u : State, (∀ n : WinNo, n ≠ 0 → places[n] = none) ∧ places[0] = s.places[0] ∧
       order.Perm p.defns ∧ order.Pairwise (fun a b => a.number ≤ b.number) ∧
       Installs { s.snapped .checks with
         places := places
         pool := { s.pool with free := s.pool.free ++ s.heldGranules }
         groups := Vector.replicate 8 { revision := none, staging := none, age := 0 }
         params := p.params
         link := { s.link with
           car := p.car, autoJoin := p.autoJoin
           lfsr := if p.car = 0 then 0x0101 else BitVec.ofNat 16 (257 * p.car) }
         status := { s.status with record := p.record, signal := p.signal, autoClear := p.autoClear } } order u ∧
       let installed := (List.finRange 32).filter fun n => decide (n ≠ 0) && (u.win n).isSome
       let refused := (List.range 32).filter fun k => (p.defns.any fun r => r.number == k) &&
         !installed.any fun n => n.val == k
       let items := installed.flatMap fun n => ((u.win n).map fun w =>
         (List.range w.mapA.length).map (fun g => ⟨n, false, g⟩) ++
           (List.range w.mapB.length).map (fun g => ⟨n, true, g⟩)).getD []
       ∃ set : BitVec 32, (∀ k, k < 32 → (set.getLsbD k = true ↔ k ∈ refused)) ∧
       let data := [BitVec.ofNat 8 installed.length, 0] ++ twoBytes set.toNat ++ twoBytes (set.toNat / 0x10000)
       exec .plod s = .next (State.arbitrate (if items = [] then u.completed .ok data
         else { u with mbox := { u.mbox with work := .clearing items data } })))

/-- R160, R176: TEST minor 1 begins with granule 0 when no window is in use and the pool is usable, else it fails; a minor
other than 1 and 2 fails BAD_PARAM. A granule takes five operations, one for each grant; a differing read-back counts the
granule, and after granule 2047 the flags of IDLE windows are cleared and the test completes. That the pool holds the bytes as
written whatever the read-backs answer is the model's choice, notes/assumptions/30.md. -/
def Obligations.PoolTestRuns : Prop :=
  (∀ s : State, CommandDue 0xA501 s → GoodParams 1 s →
     (s.word 1 ≠ 1 → s.word 1 ≠ 2 → exec .testMinor1 s = .next (State.arbitrate (s.answered .badParam [1]))) ∧
     (s.word 1 = 1 → s.someInUse → exec .testMinor1 s = .next (State.arbitrate (s.answered .windowState []))) ∧
     (s.word 1 = 1 → ¬ s.someInUse → s.pool.usable = false →
       exec .testMinor1 s = .next (State.arbitrate (s.answered .imageFault []))) ∧
     (s.word 1 = 1 → ¬ s.someInUse → s.pool.usable = true → exec .testMinor1 s = .next
       (State.arbitrate (s.snapped (.poolTest { gran := 0, op := 0, bad := false, fails := 0, lowest := none }))))) ∧
  (∀ (s : State) (j : PoolTest) (good : Bool), s.port = some .mailbox → s.mbox.work = .poolTest j → MemoryLaw s →
     let waits := fun (u : State) (x : PoolTest) => { u with mbox := { u.mbox with work := .poolTest x } }
     let fails := if j.bad then j.fails + 1 else j.fails
     let lowest := if j.bad then some (j.lowest.getD j.gran) else j.lowest
     ∃ mem, let u := { s with port := none, pool := { s.pool with mem := mem } }
       (j.op = 0 → GranuleFilled s.pool.mem mem j.gran (fun _ => 0x55) ∧
         exec (.poolTestOperation good) s = .next (State.arbitrate (waits u { j with op := 1, bad := false }))) ∧
       (j.op = 1 → mem = s.pool.mem ∧
         exec (.poolTestOperation good) s = .next (State.arbitrate (waits u { j with op := 2, bad := !good }))) ∧
       (j.op = 2 → GranuleFilled s.pool.mem mem j.gran (fun _ => 0xAA) ∧
         exec (.poolTestOperation good) s = .next (State.arbitrate (waits u { j with op := 3 }))) ∧
       (j.op = 3 → mem = s.pool.mem ∧
         exec (.poolTestOperation good) s = .next (State.arbitrate (waits u { j with op := 4, bad := j.bad || !good }))) ∧
       (j.op = 4 → GranuleFilled s.pool.mem mem j.gran (fun _ => 0) ∧
         (j.gran < 2047 → exec (.poolTestOperation good) s = .next
           (State.arbitrate (waits u { gran := j.gran + 1, op := 0, bad := false, fails := fails, lowest := lowest }))) ∧
         (j.gran = 2047 → ∃ v : State, v = { u with places := v.places } ∧
           (∀ n w, s.win n = some w → ∃ x, v.win n = some x ∧ x.defn = w.defn ∧ x.mapA = w.mapA ∧ x.mapB = w.mapB ∧
             x.state = w.state ∧ (w.state ≠ .idle → x = w) ∧
             (w.state = .idle → (∀ b ∈ x.pub.known ++ x.pub.dirty ++ x.pub.filled ++ x.ov.present ++ x.ov.staged,
               b = false) ∧ ∀ y ∈ x.pub.states, y = .idle)) ∧
           exec (.poolTestOperation good) s = .next (State.arbitrate (if fails = 0 then v.completed .ok []
             else v.completed .testFailed (twoBytes fails ++ twoBytes (lowest.getD 0)))))))

/-- R160, R176: TEST minor 2 compares words 2 to 9 with its patterns and reports the mismatch mask and the parity flags
SOME and EVERY; its own words 2 to 9 are not checked for parity (R147). -/
def Obligations.BusTest : Prop :=
  ∀ s : State, CommandDue 0xA501 s → GoodParams 1 s → s.word 1 = 2 →
    let x := fun k p => s.win0Word k ^^^ p
    let mask : Word := x 2 0x5555 ||| x 3 0xAAAA ||| x 4 0x3333 ||| x 5 0xCCCC ||| x 6 0x0F0F ||| x 7 0xF0F0 |||
      x 8 0x00FF ||| x 9 0xFF00
    let bad := fun i : Nat => s.win0.bad.getD (i + 2) false
    let some := (List.range 8).any bad
    let every := (List.range 8).all bad
    exec .testMinor2 s = .next (State.arbitrate (s.answered (if mask = 0 ∧ some = false then .ok else .testFailed)
      (twoBytes mask.toNat ++ [(if some then 1 else 0) + (if every then 2 else 0), 0])))

/-! ### Timer events -/

/-- R93, R112, R115, R124, R134, R166, R130: the wrap in running brings a cycle-start event. The cycle number goes up by
1, L becomes 0, heard flags, bars, kept beacons, grants and the frames' count are turned, and the served-cycle count
follows the link. A pending LEAVE takes the link to OFF. A suppressed wrap only clears the suppression flag. The model's
choices: the row lets the ticks up to the wrap pass (notes/assumptions/1.md), comes only where the wrap is the next boundary
(notes/assumptions/33.md), and leaves the shares of slot 0 due (notes/assumptions/7.md). -/
def Obligations.CycleStartEvent : Prop :=
  ∀ s : State, WrapNext s → TrimLaw s →
    ∃ phi : BitVec 40, (phi.toNat : Int) < 524288 + s.timer.trim ∧
    let due : List Duty := if s.timer.last = 0 then [] else [.starting, .slot 0]
    (s.timer.suppress = true → exec .suppressedWrap s = .next (State.arbitrate { s with
      timer := { s.timer with phi := phi, suppress := false, last := 0 }, due := due })) ∧
    (s.timer.suppress = false → ∃ t : State, exec .cycleStart s = .next t.arbitrate ∧ t.due = due ∧
      t = { s with places := t.places, journal := t.journal, groups := t.groups, timer := t.timer, link := t.link
                   fe := t.fe, mbox := t.mbox, status := t.status, due := t.due } ∧
      t.fe.sentInCycle = 0 ∧
      (s.link.leave = false →
        t.timer = { s.timer with phi := phi, cycle := s.timer.cycle + 1, last := 0 } ∧
        t.link = { s.link with
          table := s.link.table.map fun e => { e with heard := e.heard && e.late, late := false, bar := e.bar - 1 }
          grants := []
          keptServing := s.link.keptServing.bind fun k => if k.late then some { k with late := false } else none
          keptTarget := s.link.keptTarget.bind fun k => if k.late then some { k with late := false } else none } ∧
        t.status.served = match s.link.state with
          | .served | .handoff => min 64 (s.status.served + 1)
          | _ => 0) ∧
      (s.link.leave = true → t.link.state = .off ∧ t.link.leave = false ∧ t.timer.cycle = s.timer.cycle + 1 ∧
        (s.link.state ≠ .off → t.link.table = [] ∧ t.link.grants = [] ∧ t.link.keptServing = none ∧
          t.link.keptTarget = none ∧ t.link.prevNode = 0 ∧ t.link.persist = 0 ∧ t.fe.sent = [] ∧ t.status.served = 0 ∧
          (∀ e ∈ t.journal.entries, e.seq = none)) ∧
        (s.link.state = .served ∨ s.link.state = .handoff →
          s.status.record.getLsbD 1 = true → t.status.pending.getLsbD 1 = true) ∧
        (s.mbox.work = .leave → t.mbox.state = .done ∧ t.mbox.response.echo = s.mbox.code ∧
          t.mbox.response.data = [])))

/-- R31, R33, R41, R154: at a cycle-start event every PENDING window goes LIVE, set up afresh with the FIFO's occupancy
as its fence, and every CLOSING one is purged and becomes IDLE; the command that waits for it completes DONE with the
new cycle number: that of the event, also where the windows' share is taken later and a beacon has set the local cycle number
meanwhile (notes/assumptions/7.md). R90: a window goes LIVE with its overlay map active. R84, R74: a member that goes LIVE makes
its group's current revision absent and empties the group's staging, the staged flags of every member, LIVE or not; a staging in
progress is discarded, counted, and raises GROUP_DROPPED. R33: a purge takes the window's entries out of the journal and of the
sent-frame records. R35, R53: the windows' share leaves every other window, but for staged flags that such a discard clears and for
what the scans after purges queue. The model's choices: a purge is followed by a scan (notes/assumptions/40.md), and it leaves the
roles of a grouped window's maps (notes/assumptions/41.md). -/
def Obligations.WindowsAtCycleStart : Prop :=
  (∀ (s : State) (n : WinNo) (w : Window) (waiting : List WinNo) (cycle : Word), s.held = false →
    s.due = [.windows waiting cycle] → n ∈ waiting → n ≠ 0 → s.win n = some w →
    (w.state = .pending ∧ s.mbox.work = .enbw n) ∨ (w.state = .closing ∧ s.mbox.work = .disw n) →
    ∃ t : State, ∃ v, exec .cycleStart s = .next t.arbitrate ∧ t.timer = s.timer ∧ t.due = [] ∧ t.win n = some v ∧
      v.state = (if w.state = .pending then .live else .idle) ∧ t.mbox = { s.mbox with
        state := .done, work := .none
        response := { result := .ok, echo := s.mbox.code, prevCommand := s.mbox.prevCommand
                      prevResult := s.mbox.prevResult, overrun := s.mbox.overrun, lostWrite := s.mbox.lostWrite
                      data := twoBytes cycle.toNat } }) ∧
  (∀ (s : State) (n : WinNo) (w : Window) (cycle : Word), s.held = false → s.due = [.windows [n] cycle] → n ≠ 0 →
    s.win n = some w →
    (w.state = .pending → ∃ places : Vector (Option Window) 32, ∃ v, places[n] = some v ∧ v.state = .live ∧
      v.defn = w.defn ∧ v.mapA = w.mapA ∧ v.mapB = w.mapB ∧ v.ov.swapped = false ∧ v.fence = s.tap.fifo.length ∧ v.Blank ∧
      (∀ b ∈ v.pub.known ++ v.pub.filled, b = false) ∧ v.pub.revision = 0 ∧
      (∀ p, w.defn.body = .publish p → v.pub.countdown = p.refresh) ∧
      (∀ m, m ≠ n → places[m] = (s.win m).map fun x => if w.group ≠ 0 ∧ x.group = w.group then x.unstaged else x) ∧
      let discards := decide (w.group ≠ 0) && s.groups[w.group].staging.isSome
      let u := { s with
        due := [], places := places
        groups := if w.group = 0 then s.groups
          else s.groups.set w.group { revision := none, staging := none, age := 0 }
        status := if discards then { s.status with
          pending := s.status.raised 0x100
          counters := s.status.counters.set 16 (s.status.counters[16] + 1) } else s.status }
      exec .cycleStart s = .next (State.arbitrate
        (if s.mbox.work = .enbw n then u.completed .ok (twoBytes cycle.toNat) else u))) ∧
    (w.state = .closing → ∃ v, v.state = .idle ∧ v.defn = w.defn ∧ v.mapA = w.mapA ∧ v.mapB = w.mapB ∧
      v.ov.swapped = w.ov.swapped ∧ v.Blank ∧
      let u := State.backlogScan { s with
        due := [], places := s.places.set n (some v)
        journal := { s.journal with entries := s.journal.entries.filter fun e => decide (e.win ≠ n) }
        fe := { s.fe with
          sent := s.fe.sent.map fun f => { f with carried := f.carried.filter fun k => decide (k.1 ≠ n) }
          reads := s.fe.reads.map fun j => if j.win = n then { j with purged := true } else j } }
      exec .cycleStart s = .next (State.arbitrate
        (if s.mbox.work = .disw n then u.completed .ok (twoBytes cycle.toNat) else u)))) ∧
  (∀ (s : State) (waiting : List WinNo) (cycle : Word), s.held = false → s.due = [.windows waiting cycle] →
    let turns := fun (state : WindowState) (g : GroupNo) =>
      ∃ n ∈ waiting, ∃ w, s.win n = some w ∧ w.state = state ∧ (w.group = g ∨ state = .closing)
    let purges := turns .closing 0
    ∃ t : State, exec .cycleStart s = .next t.arbitrate ∧
      t = { s with due := [], places := t.places, journal := t.journal, groups := t.groups, mbox := t.mbox
                   status := t.status, fe := { s.fe with sent := t.fe.sent, reads := t.fe.reads } } ∧
      (¬ purges → t.journal = s.journal ∧ t.fe = s.fe) ∧
      (∀ g, t.groups[g] = s.groups[g] ∧ (g = 0 ∨ ¬ turns .pending g) ∨
        t.groups[g] = { revision := none, staging := none, age := 0 } ∧ g ≠ 0 ∧ turns .pending g) ∧
      ∀ m x, s.win m = some x → m ∉ waiting ∨ x.state = .idle ∨ x.state = .live → ∃ states backlog staged,
        t.win m = some { x with
          pub := { x.pub with states := states, backlog := backlog }, ov := { x.ov with staged := staged } } ∧
        (¬ purges ∨ x.state ≠ .live → states = x.pub.states ∧ backlog = x.pub.backlog) ∧
        (x.group ≠ 0 ∧ turns .pending x.group → staged = x.ov.staged.map fun _ => false) ∧
        (x.group = 0 ∨ ¬ turns .pending x.group → staged = x.ov.staged)) ∧
  ∀ s : State, WrapNext s → TrimLaw s → s.timer.suppress = false → ∃ t : State, exec .cycleStart s = .next t.arbitrate ∧
    ∀ n w, n ≠ 0 → s.win n = some w →
      let done := { s.mbox with
        state := .done, work := .none
        response := { result := .ok, echo := s.mbox.code, prevCommand := s.mbox.prevCommand
                      prevResult := s.mbox.prevResult, overrun := s.mbox.overrun, lostWrite := s.mbox.lostWrite
                      data := twoBytes (s.timer.cycle + 1).toNat } }
      (w.state = .pending → ∃ v, t.win n = some v ∧ v.state = .live ∧ v.defn = w.defn ∧ v.mapA = w.mapA ∧
        v.mapB = w.mapB ∧ v.ov.swapped = false ∧ v.fence = s.tap.fifo.length ∧ v.Blank ∧
        (∀ b ∈ v.pub.known ++ v.pub.filled, b = false) ∧
        v.pub.revision = 0 ∧ (∀ p, w.defn.body = .publish p → v.pub.countdown = p.refresh) ∧
        (s.mbox.work = .enbw n → t.mbox = done)) ∧
      (w.state = .closing → ∃ v, t.win n = some v ∧ v.state = .idle ∧ v.defn = w.defn ∧ v.mapA = w.mapA ∧
        v.mapB = w.mapB ∧ v.ov.swapped = w.ov.swapped ∧ v.Blank ∧ (∀ e ∈ t.journal.entries, e.win ≠ n) ∧
        (∀ f ∈ t.fe.sent, ∀ k ∈ f.carried, k.1 ≠ n) ∧ (s.mbox.work = .disw n → t.mbox = done))

/-- R54, R55: at a cycle-start event a refresh countdown above 1 goes down by 1, one of 0 stays, and one of 1 is reloaded, a
change given to every fully known or filled granule. R68, R61: ageing makes every entry older by 1 to 255 at most, and a
backlog scan follows; a WAITING entry of class 2 at 16 or class 3 at 4 leaves the journal, is counted, and its granules
become IDLE. R139, R66, R67: a record past its deadline is declared lost. Its entries within their attempts return to
WAITING in place; those at their limit leave the journal, are counted as dropped, and their granules are queued again behind
the rest of their class. -/
def Obligations.JournalTimers : Prop :=
  ∀ s : State,
    (∀ n w p, s.win n = some w → w.state = .live → w.defn.body = .publish p →
      let counted := fun k => { s.taken (.refresh n) with
        places := s.places.set n (some { w with pub := { w.pub with countdown := k } }) }
      (Due s (.refresh n) → w.pub.countdown = 1 → exec (.refresh n) s = .next (State.arbitrate
        (((List.range (w.defn.length / 16)).filter fun g => w.fullyKnown g).foldl (fun t g => t.change n g)
          (counted p.refresh)))) ∧
      (s.held = false → s.due = [.refresh n] → w.pub.countdown ≠ 1 →
        exec .cycleStart s = .next (State.arbitrate (counted (w.pub.countdown - 1))))) ∧
    (let aged := s.journal.entries.map fun e => { e with age := min 255 (e.age + 1) }
     let gone := aged.filter fun e => e.seq.isNone && (e.cls == 2 && decide (16 ≤ e.age) ||
       e.cls == 3 && decide (4 ≤ e.age))
     (s.held = false → s.due = [.journalAge] → gone = [] → exec .cycleStart s = .next (State.arbitrate (State.backlogScan
       { s with due := [], journal := { s.journal with entries := aged } }))) ∧
     (Due s .journalAge → (∀ l c, .windows l c ∉ s.due) → gone ≠ [] → ∃ u : State,
       exec .ageOut s = .next u.backlogScan.arbitrate ∧ JournalOnly (s.taken .journalAge) u ∧
       u.status = { s.status with counters := s.status.counters.set 10 (s.status.counters[10] + BitVec.ofNat 32 gone.length) } ∧
       u.journal.entries = aged.filter (fun e => !gone.contains e) ∧
       ∀ n w g, s.win n = some w → ∃ v, u.win n = some v ∧ v.pub.backlog = w.pub.backlog ∧ v.granState g =
         if ∃ e ∈ gone, e.win = n ∧ e.first ≤ g ∧ g ≤ e.last then .idle else w.granState g)) ∧
    (∀ f l m, Due s .lost → s.fe.sent = l ++ f :: m →
      (∀ x ∈ l, x.cycle = s.timer.cycle ∨ x.cycle = s.timer.cycle - 1) →
      f.cycle ≠ s.timer.cycle → f.cycle ≠ s.timer.cycle - 1 →
      (s.journal.entries.map fun e => (e.win, e.first)).Nodup →
      let carried := fun e : Entry => f.carried.contains (e.win, e.first) && decide (e.seq = some f.seq)
      let limit := fun e : Entry => if e.cls = 0 then 8 else 4
      let spent := s.journal.entries.filter fun e => carried e && decide (limit e ≤ e.attempts)
      ∃ t : State, exec .frameLost s = .next t.arbitrate ∧
        t.fe = { s.fe with sent := s.fe.sent.filter fun x => decide (x ≠ f) } ∧
        t.counter .lost = s.counter .lost + 1 ∧ JournalOnly { s with fe := t.fe } t ∧
        (spent = [] → t.journal = { s.journal with
          entries := s.journal.entries.map fun e => if carried e then { e with seq := none } else e }) ∧
        (f.carried.Nodup → t.counter .dropped = s.counter .dropped + BitVec.ofNat 32 spent.length) ∧
        t.journal.entries.filter (fun e => e.seq.isSome) =
          s.journal.entries.filter (fun e => e.seq.isSome && !carried e) ∧
        ∀ e ∈ s.journal.entries, carried e = true → ∀ w g, s.win e.win = some w → e.Covers e.win g →
          (∀ x ∈ s.journal.entries, x.Covers e.win g → x = e) →
          (w.granState g = .inFlight ∨ w.granState g = .inFlightAgain) → ∃ v, t.win e.win = some v ∧
            (e.attempts < limit e → v.granState g = .waiting) ∧ (limit e ≤ e.attempts → Requeued w v g))

/-- R85, R86, R87, R74, R83: at a cycle-start event a FRESH or EXPIRED window's age goes up by 1 to 255 at most, an EMPTY one's
not, and so does the age of a staging in progress. A FRESH window that reaches its hold time expires by its action, raises
WINDOW_EXPIRED, and drops a revision (its own, or its group's with the group's staging); an EXPIRED ungrouped FALLBACK window
loses its refill; a staging that reaches age 8 is discarded. -/
def Obligations.OverlayTimers : Prop :=
  ∀ s : State,
    (∀ n w d, s.held = false → s.due = [.overlayAge n] → s.win n = some w → w.state = .live →
      w.defn.body = .subscribe d →
      let age := min 255 (w.ov.age + 1)
      (w.ov.state = .empty → exec .cycleStart s = .next (State.arbitrate (s.taken (.overlayAge n)))) ∧
      (w.ov.state ≠ .empty → w.ov.age = d.hold ∨ age ≠ d.hold ∨
          w.ov.state = .expired ∧ (d.group ≠ 0 ∨ ∀ word, d.action ≠ .fallback word) →
        exec .cycleStart s = .next (State.arbitrate { s.taken (.overlayAge n) with
          places := s.places.set n (some { w with ov := { w.ov with age := age } }) }))) ∧
    (∀ g : GroupNo, s.held = false → s.due = [.stagingAge g] →
      (s.groups[g].staging = none → exec .cycleStart s = .next (State.arbitrate (s.taken (.stagingAge g)))) ∧
      (s.groups[g].staging.isSome = true → s.groups[g].age < 7 →
        exec .cycleStart s = .next (State.arbitrate { s.taken (.stagingAge g) with
          groups := s.groups.set g { s.groups[g] with age := s.groups[g].age + 1 } }))) ∧
    (∀ n w d, Due s (.overlayAge n) → s.win n = some w → w.state = .live → w.defn.body = .subscribe d →
      w.ov.age + 1 = d.hold → d.hold ≤ 255 →
      let cleared := w.ov.present.map fun _ => false
      let expired := { w.ov with
        age := d.hold, revision := none
        present := if d.action = .hold then w.ov.present else cleared
        state := if d.action = .release then .empty else .expired }
      (w.ov.state = .fresh → d.group = 0 → exec (.windowExpiry n) s = .next (State.arbitrate { s.taken (.overlayAge n) with
        places := s.places.set n (some { w with ov := expired })
        status := { s.status with pending := s.status.raised 0x080 } })) ∧
      (w.ov.state = .fresh → d.group ≠ 0 → exec (.windowExpiry n) s = .next (State.arbitrate { s.taken (.overlayAge n) with
        places := (s.places.set n (some { w with ov := expired })).map fun o => o.map fun v =>
          if v.group = d.group then v.unstaged else v
        groups := s.groups.set d.group { revision := none, staging := none, age := 0 }
        status := { s.status with
          pending := if s.groups[d.group].staging.isSome then s.status.raised 0x180 else s.status.raised 0x080
          counters := if s.groups[d.group].staging.isSome then s.status.counters.set 16 (s.status.counters[16] + 1)
            else s.status.counters } })) ∧
      (w.ov.state = .expired → d.group = 0 → (∃ word, d.action = .fallback word) →
        exec (.refillExpiry n) s = .next (State.arbitrate { s.taken (.overlayAge n) with
          places := s.places.set n (some { w with ov := { w.ov with
            age := d.hold, revision := none, present := cleared } }) }))) ∧
    (∀ g : GroupNo, g ≠ 0 → Due s (.stagingAge g) → s.groups[g].staging.isSome = true → s.groups[g].age = 7 →
      exec (.stagingLimit g) s = .next (State.arbitrate { s.taken (.stagingAge g) with
        places := s.places.map fun o => o.map fun v => if v.group = g then v.unstaged else v
        groups := s.groups.set g { s.groups[g] with staging := none, age := 0 }
        status := { s.status with
          pending := s.status.raised 0x100
          counters := s.status.counters.set 16 (s.status.counters[16] + 1) } }))

/-- R101, R102, R126, R69, R94, R114: the holdover test. A beacon of the reference taken since clears the flag; without one the
count goes up and the timing is HOLDOVER, and at Hl it expires: the timing is FREE, and a link in JOINING, SERVED or HANDOFF goes
to SEARCH with LINK_LOST, every role lost, frames in flight reverted from SERVED and HANDOFF. R118: the eighth slot-start event in
STARTING takes the link to OFF with RADIO_FAULT, and a JOIN fails. R166: the auto-clear clears LINK_LOST. The model's choices: the
whole join request state is cleared on entering SEARCH (notes/assumptions/26.md), the STARTING count and the LOCK sample on
entering OFF (notes/assumptions/25.md), the last tested node with the persistence (notes/assumptions/44.md). -/
def Obligations.LinkTimers : Prop :=
  ∀ s : State,
    let none' : JoinRequest := { tries := 0, wait := 0, due := none, sent := false, ends := 0 }
    let count := min 255 (s.timer.holdover + 1)
    (s.held = false → s.due = [.holdover] →
      (s.timer.timing = .free ∨ s.timer.taken = true → exec .slotStart s = .next (State.arbitrate
        { s.taken .holdover with timer := { s.timer with taken := false } })) ∧
      (s.timer.timing ≠ .free → s.timer.taken = false → count < s.params.hl → exec .slotStart s = .next (State.arbitrate
        { s.taken .holdover with timer := { s.timer with holdover := count, timing := .holdover } }))) ∧
    (Due s .holdover → s.timer.timing ≠ .free → s.timer.taken = false → s.params.hl ≤ count →
      NeighbourLaw s → RoleLaw s →
      let timer := { s.timer with timing := .free, holdover := 0, run := 0, coarse := false, taken := false }
      let lost := { s.status with pending := s.status.raised 0x002, served := 0 }
      let search := { s.link with
        state := .search, table := rolesLost s.params s.link.table, grants := [], keptTarget := none, join := none' }
      (s.link.state = .off ∨ s.link.state = .starting ∨ s.link.state = .search →
        exec .holdoverExpiry s = .next (State.arbitrate { s.taken .holdover with timer := timer })) ∧
      (s.link.state = .joining → exec .holdoverExpiry s = .next (State.arbitrate { s.taken .holdover with
        timer := timer, link := search, status := lost })) ∧
      (∀ e, s.link.state = .served ∨ s.link.state = .handoff → s.link.holder .serving = some e → ∃ t : State,
        exec .holdoverExpiry s = .next t.arbitrate ∧ Reverted s t ∧
        JournalOnly { s.taken .holdover with
          timer := timer, link := t.link, fe := { s.fe with sent := [] }, status := { s.status with served := 0 } } t ∧
        t.status = lost ∧
        t.link = { search with keptServing := none, prevNode := e.node, persist := 0, lastTested := none })) ∧
    (Due s .starting → s.link.state = .starting → s.link.startCount = 7 →
      let u := { s.taken .starting with
        link := { s.link with
          state := .off, table := [], grants := [], keptServing := none, keptTarget := none
          join := none', persist := 0, lastTested := none
          prevNode := 0, best := none, startCount := 0, lock := false }
        fe := { s.fe with rx := none }
        status := { s.status with pending := s.status.raised 0x400 } }
      exec .startingTimeout s = .next (State.arbitrate (if s.mbox.work = .join then u.completed .radioFault [] else u))) ∧
    (s.held = false → s.due = [.starting] → s.link.startCount < 7 → exec .slotStart s = .next (State.arbitrate
      { s.taken .starting with link := if s.link.state = .starting then
          { s.link with startCount := s.link.startCount + 1 } else s.link })) ∧
    (Due s .served → s.status.autoClear = true → s.link.state = .served ∨ s.link.state = .handoff →
      63 ≤ s.status.served → exec .autoClear s = .next (State.arbitrate { s.taken .served with
        status := { s.status with served := 64, pending := s.status.pending &&& ~~~0x002 } }))

/-- R121, R123, R128, R129, R126, R114, R115, R94: JOINING without an answer, and HANDOFF, at the beacon-phase end. At the
second end after a request was sent JOINING backs off and tries again, or at the sixth try bars the target for 16 cycles and
goes on without it; before that the ends are counted and waits run down, and a wait of 0 makes the request due in a drawn
slot. HANDOFF switches on an accept. It goes on JOINING with its target when the serving node is lost, and returns to SERVED,
the target barred, on a refusal or an unanswered request. The model's choices: the count of ends is 0 once a request is
unanswered; a new target's whole join request state is set afresh, and entering SEARCH or SERVED clears it
(notes/assumptions/26.md); the best candidate shown is the one found first (notes/assumptions/25.md);
a grant that is cut and overlaps is counted once (notes/assumptions/23.md); the last tested node becomes none with the persistence
(notes/assumptions/44.md). -/
def Obligations.JoinTimers : Prop :=
  ∀ s : State, Due s .phaseEnd → NeighbourLaw s → RoleLaw s → ∀ b, Noted s.params s.link.table b →
    let noted := { s.link with best := b }
    let r := stepRegister s.link.lfsr
    let j := s.link.join
    let none' : JoinRequest := { tries := 0, wait := 0, due := none, sent := false, ends := 0 }
    let turned := fun l : Link => { s.taken .phaseEnd with link := l }
    let refused := { s.status with counters := s.status.counters.set 18 (s.status.counters[18] + 1) }
    let unheard := j.sent = true ∧ 1 ≤ j.ends
    (s.link.state = .joining → Unanswered s.link →
      (unheard → j.tries < 6 → j.due = none → exec .joinUnanswered s = .next
        (State.arbitrate { turned noted.backedOff with status := refused })) ∧
      (unheard → j.tries < 6 → j.due ≠ none → exec .joinUnanswered s = .next (State.arbitrate
        { turned { noted with
            lfsr := r
            join := { j with tries := j.tries + 1, wait := r.toNat % 2 ^ j.tries, sent := false, ends := 0 } } with
          status := refused })) ∧
      (∀ e, unheard → 6 ≤ j.tries → s.link.holder .target = some e → ∃ m,
        JoinsBest s.params { noted with table := roleLost s.params s.link.table e.node (some 16) } m ∧
        exec .joinUnanswered s = .next (State.arbitrate { turned m with
          timer := { s.timer with run := 0, coarse := s.timer.coarse && m.state != .search }, status := refused })) ∧
      (j.due = none → j.sent = false → j.wait = 0 → exec .joinWaitExpiry s = .next (State.arbitrate
        (turned { noted with lfsr := r, join := { j with due := some (60 + r.toNat % 4) } }))) ∧
      (s.due = [.phaseEnd] →
        (j.sent = true → j.ends = 0 →
          exec .slotStart s = .next (State.arbitrate (turned { noted with join := { j with ends := 1 } }))) ∧
        (j.sent = false → j.due ≠ none → exec .slotStart s = .next (State.arbitrate (turned noted))) ∧
        (j.sent = false → j.due = none → 0 < j.wait →
          exec .slotStart s = .next (State.arbitrate (turned { noted with join := { j with wait := j.wait - 1 } }))))) ∧
    (∀ e x, s.link.state = .handoff → s.link.holder .serving = some e → s.link.holder .target = some x →
      s.due = [.phaseEnd] →
      let grants := (granted s.link.keptServing).1
      let counters := s.clipped s.link.keptServing
      let unaccepted := ∀ k, s.link.keptTarget = some k → k.firstAnswer s.link.car ≠ some .joinAccept
      let refuses := ∃ k, s.link.keptTarget = some k ∧ k.Refuses s.link.car
      (∀ k, s.link.keptTarget = some k → k.firstAnswer s.link.car = some .joinAccept → ∃ t : State,
        exec .slotStart s = .next t.arbitrate ∧ Reverted s t ∧
        JournalOnly { s with due := [], timer := t.timer, link := t.link, fe := t.fe } t ∧
        t.fe = { s.fe with sent := [], rxBase := 0, rxMap := 0, ackPending := false } ∧
        t.timer = { s.timer with run := 0 } ∧
        t.status = { s.status with
          pending := s.status.raised 0x004
          counters := (s.clipped (some k)).set 17 (s.status.counters[17] + 1) } ∧
        t.link = { noted with
          state := .served, keptServing := some k, keptTarget := none, prevNode := e.node, join := none', persist := 0
          lastTested := none, grants := (granted (some k)).1
          table := (roleLost s.params s.link.table e.node none).map fun y =>
            if y.node = x.node then { y with role := .serving } else y }) ∧
      (∀ bar, unaccepted → Lost s e bar → ∃ t : State, exec .slotStart s = .next t.arbitrate ∧
        (Unanswered s.link → unheard → exec .joinUnanswered s = .next t.arbitrate) ∧ Reverted s t ∧
        JournalOnly { s with due := [], timer := t.timer, link := t.link, fe := t.fe
                             status := { s.status with served := 0 } } t ∧
        t.fe = { s.fe with sent := [] } ∧ t.status.pending = s.status.raised 0x002 ∧
        t.timer = { s.timer with run := t.timer.run, coarse := s.timer.coarse && t.link.state != .search } ∧
        let left := { noted.bereft s.params e.node bar with state := .joining, join := { j with tries := 1 } }
        (Unanswered s.link → ¬ unheard → j.sent = true ∨ j.due ≠ none → t.status.counters = counters ∧ t.timer.run = 0 ∧
          t.link = { left with join := { left.join with ends := if j.sent then j.ends + 1 else j.ends } }) ∧
        (Unanswered s.link → unheard → j.due = none → t.link = left.backedOff ∧ t.timer.run = 0 ∧
          t.status.counters = counters.set 18 (s.status.counters[18] + 1)) ∧
        (refuses → t.status.counters = counters.set 18 (s.status.counters[18] + 1) ∧
          (bar = some 16 ∨ e.heard = false → t.timer.run = 0) ∧
          JoinsBest s.params { left with table := roleLost s.params left.table x.node (some 16) } t.link)) ∧
      (Holds s e → refuses ∨ Unanswered s.link ∧ unheard →
        let failed := State.arbitrate { turned { noted with
            state := .served, grants := grants, keptTarget := none, join := none', persist := 0, lastTested := none
            table := roleLost s.params s.link.table x.node (some 16) } with
          status := { s.status with counters := counters.set 18 (s.status.counters[18] + 1) } }
        exec .slotStart s = .next failed ∧ (¬ refuses → exec .joinUnanswered s = .next failed)) ∧
      (Holds s e → Unanswered s.link → ¬ unheard → exec .slotStart s = .next (State.arbitrate { turned { noted with
          grants := grants, join := { j with ends := if j.sent then j.ends + 1 else j.ends } } with
        status := { s.status with counters := counters } })))

/-- R92, R91, R114, and the model's choices that a row lets the ticks before its event pass (notes/assumptions/1.md), that an
event's shares are taken block by block in one order (notes/assumptions/7.md) and that a row whose event does not come changes
nothing (notes/assumptions/11.md). SLOT_START with shares of a slot-start event left
takes them in their order. From slot k, the wrap apart, it takes the phase into the next slot, L becomes that slot, and the
event's shares are taken: the misses of the entries of the beacon slot that ended, the STARTING count, at slot 8 the
beacon-phase end, the loss deadline and the holdover test, then the slot's settings. With the link OFF or SEARCH, away from slot 8,
entries of the beacon slot that ended and were not heard take a miss, and one of role NONE that reaches D misses leaves the table,
also when its row NEIGHBOUR_DROP takes that share. R93: slot 0's event follows the cycle-start event, so a STARTING timeout there
finds the link as a pending LEAVE has left it. R114: the beacon-phase end decides after the misses of slot 7, so JOIN_UNANSWERED,
JOIN_WAIT_EXPIRY and HOLDOVER_EXPIRY take those first. By the model's choice (notes/assumptions/11.md), which no rule states,
STARTING_TIMEOUT, JOIN_UNANSWERED, JOIN_WAIT_EXPIRY and HOLDOVER_EXPIRY leave everything as it was when what they name does not
come then. -/
def Obligations.SlotStartEvent : Prop :=
  (∀ s : State, s.held = false → .starting ∈ s.due →
    let u := { s with due := s.due.filter Duty.ofSlot }.afterShares (s.due.filter fun d => !d.ofSlot)
    (u.link.state = .starting → 7 ≤ u.link.startCount → exec .startingTimeout s = exec .startingTimeout u) ∧
    (u.link.state ≠ .starting ∨ u.link.startCount < 7 → exec .startingTimeout s = .next s.arbitrate) ∧
    (s.link.leave = true → .linkCycle ∈ s.due → u.link.state = .off)) ∧
  (∀ s : State, s.held = false → (∃ d ∈ s.due, d.ofSlot = true) →
    let v := { s with due := s.due.filter Duty.ofSlot }.afterShares (s.due.filter fun d => !d.ofSlot)
    let u := { v with due := v.due.filter fun d => !d.isMiss }.afterShares (v.due.filter Duty.isMiss)
    ∀ c d p, (c, d, p) ∈ [
        (Instr.joinUnanswered, Duty.phaseEnd, (u.link.state = .joining ∨ u.link.state = .handoff) ∧ Unanswered u.link ∧
          u.link.join.sent = true ∧ 1 ≤ u.link.join.ends),
        (.joinWaitExpiry, .phaseEnd, u.link.state = .joining ∧ Unanswered u.link ∧ u.link.join.due = none ∧
          u.link.join.sent = false ∧ u.link.join.wait = 0),
        (.holdoverExpiry, .holdover, u.timer.timing ≠ .free ∧ u.timer.taken = false ∧
          u.params.hl ≤ min 255 (u.timer.holdover + 1))] →
      (d ∈ s.due → p → exec c s = exec c u) ∧ (d ∉ s.due ∨ ¬ p → exec c s = .next s.arbitrate)) ∧
  (∀ s : State, s.held = false → (∃ d ∈ s.due, d.ofSlot = true) →
    exec .slotStart s = .next (s.due.foldl State.perform { s with due := [] }).arbitrate) ∧
  (∀ (s : State) (k : Nat), s.held = false → s.due = [] → TrimLaw s → s.timer.phi.toNat / 2 ^ 34 = k → k ≤ 62 →
    k + 1 ≠ s.timer.last →
    ∃ phi : BitVec 40, (k + 1) * 2 ^ 34 ≤ phi.toNat ∧ (phi.toNat : Int) < (k + 1) * 2 ^ 34 + (524288 + s.timer.trim) ∧
      let misses := if k ≤ 7 then
        ((s.link.table.filter fun e => e.phase == k).map fun e => Duty.miss k e.node) else []
      let phaseEnd : List Duty := if k = 7 then [.phaseEnd, .lost, .holdover] else []
      exec .slotStart s = .next ((misses ++ [Duty.starting] ++ phaseEnd ++ [Duty.slot (k + 1)]).foldl State.perform
        { s with timer := { s.timer with phi := phi, last := k + 1 } }).arbitrate) ∧
  ∀ s : State, NeighbourLaw s →
    (∀ k, s.held = false → s.due = [] → TrimLaw s → s.timer.phi.toNat / 2 ^ 34 = k → k ≤ 61 → k ≠ 7 →
      k + 1 ≠ s.timer.last → s.link.state ≠ .starting → s.link.state = .off ∨ s.link.state = .search →
      ∃ t : State, ∃ phi, exec .slotStart s = .next t.arbitrate ∧
        t = { s with timer := t.timer, link := t.link, fe := t.fe, status := t.status } ∧
        t.timer = { s.timer with phi := phi, last := k + 1 } ∧
        (k + 1) * 2 ^ 34 ≤ phi.toNat ∧ (phi.toNat : Int) < (k + 1) * 2 ^ 34 + (524288 + s.timer.trim) ∧
        t.fe = { s.fe with listening := decide (s.link.state = .search), down := none } ∧
        t.link = { s.link with table :=
          if k ≤ 7 then
            (s.link.table.filter fun e => !(e.phase == k && !e.heard && e.role == .none &&
              decide (s.params.d ≤ min 15 (e.misses + 1)))).map fun e =>
                if e.phase = k ∧ e.heard = false then
                  { e with misses := min 15 (e.misses + 1), score := e.score - s.params.p } else e
          else s.link.table }) ∧
    (∀ k e, Due s (.miss k e.node) → (∀ p, .miss p e.node ∈ s.due → p = k) → e ∈ s.link.table → e.phase = k →
      e.heard = false →
      let missed := { e with misses := min 15 (e.misses + 1), score := e.score - s.params.p }
      (e.role = .none → s.params.d ≤ min 15 (e.misses + 1) →
        exec (.neighbourDrop e.node) s = .next (State.arbitrate { s.taken (.miss k e.node) with
          link := { s.link with table := s.link.table.filter fun x => decide (x.node ≠ e.node) } })) ∧
      (s.due = [.miss k e.node] → e.role ≠ .none ∨ min 15 (e.misses + 1) < s.params.d →
        exec .slotStart s = .next (State.arbitrate { s with
          due := []
          link := { s.link with table := s.link.table.map fun x => if x.node = e.node then missed else x }
          status := if e.role ≠ .serving then s.status else { s.status with
            counters := s.status.counters.set 19 (s.status.counters[19] + 1) } })))

/-- R117, R106, R143, R121: what a slot-start event sets for the slot begun: whether the part listens, by the link state and
the DOWN grants, and the join request that is due in it, in JOINING and in HANDOFF. The model's choice: a request replaces a frame
that is still held, whose reads then feed no frame (notes/assumptions/16.md). -/
def Obligations.SlotSettings : Prop :=
  ∀ (s : State) (k : Nat), s.held = false → s.due = [.slot k] →
    let u := { s with due := [] }
    let set := fun (listens : Bool) (down : Option Nat) =>
      { u with fe := { s.fe with listening := listens, down := down } }
    let request := fun (node prev reason : Nat) => State.arbitrate { u with
      link := { s.link with join := { s.link.join with due := none, sent := true, ends := 0 } }
      fe := { s.fe with
        listening := false, down := none, reads := s.fe.reads.map fun j => { j with ofFrame := false }
        tx := some { body := [0x80, BitVec.ofNat 8 s.link.car, BitVec.ofNat 8 node, BitVec.ofNat 8 prev,
          BitVec.ofNat 8 reason] } } }
    (s.link.state = .off ∨ s.link.state = .starting → exec .slotStart s = .next (State.arbitrate (set false none))) ∧
    (s.link.state = .search → exec .slotStart s = .next (State.arbitrate (set true none))) ∧
    (s.link.state = .joining → s.link.join.due ≠ some k →
      exec .slotStart s = .next (State.arbitrate (set (decide (k ≤ 7)) none))) ∧
    (∀ e, s.link.state = .joining → s.link.join.due = some k → s.link.holder .target = some e →
      exec .slotStart s = .next (request e.node s.link.prevNode (if s.fe.freshStart then 1 else 2))) ∧
    (∀ e x, s.link.state = .handoff → s.link.join.due = some k → s.link.holder .serving = some e →
      s.link.holder .target = some x → (∀ g ∈ s.link.grants, g.up = true → k < g.first ∨ g.last < k) →
      exec .slotStart s = .next (request x.node e.node 3)) ∧
    (s.link.state = .served ∨ s.link.state = .handoff ∧ s.link.join.due ≠ some k →
      (∀ g ∈ s.link.grants, g.up = true → k < g.first ∨ g.last < k) →
      ((∀ g ∈ s.link.grants, g.up = false → k < g.first ∨ g.last < k) →
        exec .slotStart s = .next (State.arbitrate (set (decide (k ≤ 7)) none))) ∧
      (∀ g l m, s.link.grants = l ++ g :: m → g.up = false → g.first ≤ k → k ≤ g.last →
        (∀ x ∈ l, x.up = false → k < x.first ∨ x.last < k) →
        exec .slotStart s = .next (State.arbitrate (set true (some g.dest)))))

/-- R62 to R64, R134, R135, R137, R141: a granted UP slot, in SERVED and in HANDOFF, with entries to send or an
acknowledgement pending. The WAITING entries are taken from the head of the list while their records fit in 249 bytes, none
while HOLD is in force. Those of class 0 and 1 become IN_FLIGHT in place, with the frame's sequence and one attempt more;
those of class 2 and 3 leave the journal, and a scan follows, which changes nothing with no LIVE window backlogged; the
granules of all are in flight. The frame takes the next sequence, carries the header of R178, joins the sent-frame list, and
its records wait to be read. Without room for a frame the slot is counted unused. The model's choices: the frame replaces
one that is still held, whose reads then feed no frame and come before its own (notes/assumptions/16.md), and it records the
local cycle number as it stands at this share (notes/assumptions/7.md). -/
def Obligations.UplinkFrameIsBuilt : Prop :=
  ∀ (s : State) (k : Nat) (g : Grant) (e : Neighbour), s.held = false → s.due = [.slot k] →
    s.link.state = .served ∨ s.link.state = .handoff ∧ s.link.join.due ≠ some k →
    g ∈ s.link.grants → g.up = true → g.first ≤ k → k ≤ g.last → s.link.holder .serving = some e →
    let size := fun x : Entry => 6 + 16 * (x.last - x.first + 1)
    (16 ≤ s.fe.sentInCycle ∨ 32 ≤ s.fe.sent.length → ∃ t : State, exec .slotStart s = .next t.arbitrate ∧
      t = { s with due := [], fe := t.fe, status := t.status } ∧
      t.fe = { s.fe with listening := t.fe.listening, down := t.fe.down } ∧
      t.counter .slotsUnused = s.counter .slotsUnused + 1) ∧
    (s.fe.sentInCycle < 16 → s.fe.sent.length < 32 → ∃ t : State, ∃ l r, exec .slotStart s = .next t.arbitrate ∧
      s.journal.entries = l ++ r ∧
      let taken := l.filter fun x => x.seq.isNone
      let best := taken.any fun x => decide (2 ≤ x.cls)
      (taken.map size).sum ≤ 249 ∧ (s.journal.hold = true → taken = []) ∧
      (s.journal.hold = false → ∀ x, r.find? (fun x => x.seq.isNone) = some x → 249 < (taken.map size).sum + size x) ∧
      (taken = [] → s.fe.ackPending = false →
        t = { s with due := [], fe := { s.fe with listening := t.fe.listening, down := t.fe.down } }) ∧
      (taken ≠ [] ∨ s.fe.ackPending = true → JournalOnly { s with due := [], fe := t.fe } t ∧
        t.fe = { s.fe with
          listening := false, down := none, nextSeq := s.fe.nextSeq + 1, sentInCycle := s.fe.sentInCycle + 1
          ackPending := false
          tx := some { body :=
            [BitVec.ofNat 8 (0x40 + taken.length), BitVec.ofNat 8 s.link.car, BitVec.ofNat 8 e.node, s.fe.nextSeq,
              s.fe.rxBase, highByte s.fe.rxMap, lowByte s.fe.rxMap] }
          sent := s.fe.sent ++ [{ seq := s.fe.nextSeq, cycle := s.timer.cycle
                                  carried := (taken.filter fun x => decide (x.cls ≤ 1)).map fun x => (x.win, x.first) }]
          reads := (s.fe.reads.map fun j => { j with ofFrame := false }) ++ taken.map fun x =>
            { win := x.win, first := x.first, last := x.last, bestEffort := decide (2 ≤ x.cls), ofFrame := true
              purged := false } } ∧
        t.counter .sent = s.counter .sent + 1 ∧
        let left := l.flatMap (fun x =>
          if x.seq.isSome then [x]
          else if x.cls ≤ 1 then
            [{ x with seq := some s.fe.nextSeq, attempts := min (if x.cls = 0 then 8 else 4) (x.attempts + 1) }]
          else []) ++ r
        (∃ u : State, u.journal.entries = left ∧ JournalOnly { s with due := [], fe := t.fe } u ∧
          t = if best then u.backlogScan else u) ∧
        (best = false ∨ (∀ n w, s.win n = some w → w.state = .live → w.pub.backlog = false) → t.journal.entries = left) ∧
        t.journal.entries.filter (fun x => x.seq.isSome) = left.filter (fun x => x.seq.isSome) ∧
        ∀ n w i, s.win n = some w → i < w.pub.states.length → ∃ v, t.win n = some v ∧
          ((∃ x ∈ taken, x.Covers n i) → v.granState i = .inFlight) ∧
          ((∀ x ∈ taken, ¬ x.Covers n i) → best = false ∨ w.granState i ≠ .wanted → v.granState i = w.granState i)))

/-- R116, R120, R122, R124 to R127, R114, R115, R69, R94: the beacon-phase end in SEARCH, JOINING with an answer, and SERVED.
In SEARCH the best candidate becomes TARGET. In JOINING an accept makes the target SERVING with LINK_UP, the receive record
cleared and the grants of its beacon; a refusal, or CLOSING, bars it for 16 cycles and the next best candidate follows. In
SERVED the grant list is built; a release, CLOSING or Ls misses lose the serving link; else the handoff test is made, and at K
passes in a row the link goes to HANDOFF. The model's choices: a new target's whole join request state is set afresh, and entering
SEARCH clears it (notes/assumptions/26.md); the best candidate shown is the one found first (notes/assumptions/25.md);
a grant that is cut and overlaps is counted once (notes/assumptions/23.md); the last tested node becomes none with the persistence
(notes/assumptions/44.md). -/
def Obligations.BeaconPhaseEnd : Prop :=
  ∀ s : State, s.held = false → s.due = [.phaseEnd] → NeighbourLaw s → RoleLaw s →
    ∀ b, Noted s.params s.link.table b →
    let noted := { s.link with best := b }
    let none' : JoinRequest := { tries := 0, wait := 0, due := none, sent := false, ends := 0 }
    (s.link.state = .search → (∀ e ∈ s.link.table, ¬ e.Candidate s.params) →
      exec .slotStart s = .next (State.arbitrate { s with due := [], link := noted })) ∧
    (∀ c, s.link.state = .search → Best s.params s.link.table c →
      exec .slotStart s = .next (State.arbitrate { s with
        due := [], timer := { s.timer with run := 0 }, link := { noted.aimedAt c.node with state := .joining } })) ∧
    (∀ k e, s.link.state = .joining → s.link.keptTarget = some k → s.link.holder .target = some e →
      (k.firstAnswer s.link.car = some .joinAccept → exec .slotStart s = .next (State.arbitrate { s with
        due := []
        link := { noted with
          state := .served, keptServing := some k, keptTarget := none, join := none', persist := 0, lastTested := none
          grants := (granted (some k)).1
          table := s.link.table.map fun y => if y.node = e.node then { y with role := .serving } else y }
        fe := { s.fe with rxBase := 0, rxMap := 0, ackPending := false, freshStart := false }
        status := { s.status with pending := s.status.raised 0x001, counters := s.clipped (some k) } })) ∧
      (k.Refuses s.link.car → ∃ m,
        JoinsBest s.params { noted with table := roleLost s.params s.link.table e.node (some 16) } m ∧
        exec .slotStart s = .next (State.arbitrate { s with
          due := [], link := m
          timer := { s.timer with run := 0, coarse := s.timer.coarse && m.state != .search }
          status := { s.status with counters := s.status.counters.set 18 (s.status.counters[18] + 1) } }))) ∧
    (∀ e, s.link.state = .served → s.link.holder .serving = some e →
      let grants := (granted s.link.keptServing).1
      let status := { s.status with counters := s.clipped s.link.keptServing }
      (∀ bar, Lost s e bar → ∃ t : State, exec .slotStart s = .next t.arbitrate ∧ Reverted s t ∧
        JournalOnly { s with due := [], timer := t.timer, link := t.link, fe := t.fe
                             status := { s.status with served := 0 } } t ∧
        t.fe = { s.fe with sent := [] } ∧
        t.status = { status with pending := s.status.raised 0x002, served := 0 } ∧
        t.timer = { s.timer with run := t.timer.run, coarse := s.timer.coarse && t.link.state != .search } ∧
        (bar = some 16 ∨ e.heard = false → t.timer.run = 0) ∧
        JoinsBest s.params (noted.bereft s.params e.node bar) t.link) ∧
      (Holds s e →
        ((∀ c, Best s.params s.link.table c → c.score < e.score + s.params.hm) →
          exec .slotStart s = .next (State.arbitrate { s with
            due := [], link := { noted with grants := grants, persist := 0, lastTested := none }, status := status })) ∧
        ∀ c, Best s.params s.link.table c → e.score + s.params.hm ≤ c.score →
          let n := if s.link.lastTested = some c.node then s.link.persist + 1 else 1
          (n < s.params.k → exec .slotStart s = .next (State.arbitrate { s with
            due := [], link := { noted with grants := grants, persist := n, lastTested := some c.node }
            status := status })) ∧
          (s.params.k ≤ n → exec .slotStart s = .next (State.arbitrate { s with
            due := []
            link := { noted.aimedAt c.node with state := .handoff, grants := grants, persist := 0, lastTested := none }
            status := status }))))

/-! ### The frame port -/

/-- R132, R178, R179: a beacon and a downlink frame laid out by R178 with their CRC are read back field by field, and
with any other CRC they are bad. R180: the bits above a record's topic in its topic word, group and spare, and the spare bits of
a beacon's flags have no effect, whatever they hold. R179: a grant entry of an unknown grant kind is not read. R133: a beacon of a
phase above 7, an UPLINK frame and a JOIN_REQUEST, whatever its count, are of no use to the part when their CRC is good, and bad
with another. R133, R179: a frame is bad, whatever follows, once its kind is none of the four, a beacon's grant or ack count is
above 16, a record count above 11, or a record's granule count 0, above 14, or one that takes the body past 256 bytes. The model's
choice: bytes that stop before the end of the CRC are bad (notes/assumptions/15.md). -/
def Obligations.FramesReadBack : Prop :=
  (∀ b : Beacon, b.ok → classify (withCrc b.body) = .beacon b ∧
    ∀ crc : Word, crc ≠ crc16 b.body → classify (b.body ++ airWord crc) = .bad) ∧
  (∀ d : Downlink, d.ok → classify (withCrc d.body) = .downlink d ∧
    ∀ crc : Word, crc ≠ crc16 d.body → classify (d.body ++ airWord crc) = .bad) ∧
  (∀ (b : Beacon) (spare : BitVec 6), b.ok → classify (withCrc (b.bodyUnder spare)) = .beacon b ∧
    ∀ crc : Word, crc ≠ crc16 (b.bodyUnder spare) → classify (b.bodyUnder spare ++ airWord crc) = .bad) ∧
  (∀ (d : Downlink) (above : Nat → BitVec 6), d.ok → classify (withCrc (d.bodyUnder above)) = .downlink d ∧
    ∀ crc : Word, crc ≠ crc16 (d.bodyUnder above) → classify (d.bodyUnder above ++ airWord crc) = .bad) ∧
  (∀ (b : Beacon) (l : List (GrantEntry × Option Byte)), b.ok → l.length ≤ 16 →
    b.grants = (l.filter fun e => e.2.isNone).map Prod.fst → (∀ e ∈ l, ∀ k, e.2 = some k → k = 0 ∨ 5 < k.toNat) →
    classify (withCrc (BitVec.ofNat 8 (0x20 + l.length) :: (b.body.take 7).drop 1 ++
      l.flatMap (fun e => e.1.bytes.take 3 ++ [e.2.getD (e.1.bytes.getD 3 0)]) ++ b.acks.flatMap AckEntry.bytes)) = .beacon b) ∧
  (∀ body : List Byte,
    (∃ (b : Beacon) (phase : Nat), b.ok ∧ 8 ≤ phase ∧ phase < 256 ∧ body = { b with phase := phase }.body) ∨
      (∃ kind rest, kind.toNat / 32 = 4 ∧ rest.length = 4 ∧ body = kind :: rest) ∨
      (∃ kind rest rs, kind = BitVec.ofNat 8 (0x40 + rs.length) ∧ rest.length = 6 ∧ rs.length ≤ 11 ∧ RecordsOk rs ∧
        body = kind :: rest ++ rs.flatMap Delivery.bytes ∧ body.length ≤ 256) →
    classify (withCrc body) = .foreign ∧ ∀ crc : Word, crc ≠ crc16 body → classify (body ++ airWord crc) = .bad) ∧
  (classify [] = .bad ∧ ∀ (kind : Byte) (rest : List Byte),
    let count := kind.toNat % 32
    (kind.toNat / 32 = 0 ∨ 4 < kind.toNat / 32 ∨ kind.toNat / 32 = 1 ∧ (16 < count ∨ 16 < (rest.getD 5 0).toNat) ∨
      (kind.toNat / 32 = 2 ∨ kind.toNat / 32 = 3) ∧ 11 < count → classify (kind :: rest) = .bad) ∧
    ∀ header rs top after (n : Byte), rest = header ++ rs.flatMap Delivery.bytes ++ top ++ n :: after →
      kind.toNat / 32 = 2 ∧ header.length = 6 ∨ kind.toNat / 32 = 3 ∧ header.length = 3 → RecordsOk rs → rs.length < count →
      top.length = 5 →
      n = 0 ∨ 14 < n.toNat ∨ 256 < 1 + header.length + (rs.flatMap Delivery.bytes).length + 6 + 16 * n.toNat →
      classify (kind :: rest) = .bad) ∧
  (∀ b : Beacon, b.ok → ∀ n, n < (withCrc b.body).length → classify ((withCrc b.body).take n) = .bad) ∧
  ∀ d : Downlink, d.ok → ∀ n, n < (withCrc d.body).length → classify ((withCrc d.body).take n) = .bad

/-- R111, R112, R113, R138, R65: a good beacon scores a known node's entry, makes a new entry while there is room, and else
replaces the weakest entry of role NONE or is counted as ignored; a beacon of node 0 or 255, which no node has, leaves the table
(R111); it is kept for the serving node and the target. The serving
node's ack entries for this car take frames off the sent-frame list: the entries they carried leave the journal, their granules
become IDLE, and those changed in flight are queued again. The Cycle Timer then takes the beacon (`timeBeacon`, as
BeaconSetsTheTimer says). The model's choices: a beacon of node 0 or 255 still times the phase
(notes/assumptions/24.md); the acks are matched before the Cycle Timer takes the beacon
(notes/assumptions/42.md), and a beacon sampled in slots 32 to 63 belongs to the next cycle also when it aligns the phase itself
or is sampled before a wrap that is suppressed (notes/assumptions/37.md). -/
def Obligations.BeaconIsScored : Prop :=
  ∀ (s : State) (r : Reception) (bytes : List Byte) (b : Beacon), Receiving s r bytes (.beacon b) → NeighbourLaw s →
    let q := if r.level ≤ s.params.f then 0 else min 255 ((r.level - s.params.f) * s.params.s)
    let late := decide (32 * 2 ^ 34 ≤ r.phi.toNat) && !r.wrapped
    let moved := fun score : Nat => if score ≤ q then score + ((q - score) * s.params.w + 8) / 16
      else score - ((score - q) * s.params.w + 8) / 16
    let new : Neighbour :=
      { node := b.node, phase := b.phase, score := q, misses := 0, heard := true, late := late, sample := q
        accepting := b.accepting, closing := b.closing, role := .none, bar := 0 }
    let serving := (s.link.state = .served ∨ s.link.state = .handoff) ∧
      ∃ e, s.link.holder .serving = some e ∧ e.node = b.node
    let acked := fun f : SentFrame => b.acks.any fun a => a.car == s.link.car && a.car != 0 &&
      decide ((a.base - f.seq).toNat ≤ 15) && a.map.getLsbD (a.base - f.seq).toNat
    let delivered := fun e : Entry => s.fe.sent.any fun f =>
      acked f && f.carried.contains (e.win, e.first) && decide (e.seq = some f.seq)
    let kept : Kept :=
      { accepting := b.accepting, closing := b.closing, late := late
        grants := b.grants.filter fun g => g.car == s.link.car || (g.kind == .down && g.car == 0) }
    ∃ u : State, exec (.beacon bytes) s = .next (u.timeBeacon b.node b.phase b.cycle r.phi).arbitrate ∧
      u.fe = { s.fe with rx := none, sent := u.fe.sent } ∧ JournalOnly { s with link := u.link, fe := u.fe } u ∧
      u.link = { s.link with
        table := u.link.table, keptServing := u.link.keptServing, keptTarget := u.link.keptTarget } ∧
      (b.node = 0 ∨ b.node = 255 → u.link.table = s.link.table ∧ u.counter .nodesIgnored = s.counter .nodesIgnored) ∧
      (1 ≤ b.node → b.node ≤ 254 → (∃ e ∈ s.link.table, e.node = b.node) →
        u.counter .nodesIgnored = s.counter .nodesIgnored ∧ u.link.table = s.link.table.map fun e => if e.node = b.node then
        { e with score := moved e.score, misses := 0, heard := true, late := late, sample := q, phase := b.phase
                 accepting := b.accepting, closing := b.closing } else e) ∧
      (1 ≤ b.node → b.node ≤ 254 → (∀ e ∈ s.link.table, e.node ≠ b.node) →
        (s.link.table.length < 12 → u.link.table = s.link.table ++ [new]) ∧
        (12 ≤ s.link.table.length →
          (∀ e ∈ s.link.table, e.role = .none → q ≤ e.score) →
            u.link.table = s.link.table ∧ u.counter .nodesIgnored = s.counter .nodesIgnored + 1) ∧
        (12 ≤ s.link.table.length → ∀ x ∈ s.link.table, x.role = .none → x.score < q →
          (∀ e ∈ s.link.table, e.role = .none → x.score < e.score ∨ (x.score = e.score ∧ e.node ≤ x.node)) →
            u.link.table = s.link.table.map fun e => if e.node = x.node then new else e)) ∧
      (∀ e ∈ s.link.table, e.node = b.node →
        u.link.keptServing = (if e.role = .serving then some kept else s.link.keptServing) ∧
        u.link.keptTarget = (if e.role = .target then some kept else s.link.keptTarget)) ∧
      ((∀ e ∈ s.link.table, e.node ≠ b.node) →
        u.link.keptServing = s.link.keptServing ∧ u.link.keptTarget = s.link.keptTarget) ∧
      (¬ serving → u.fe.sent = s.fe.sent ∧ u.journal = s.journal) ∧
      (serving → u.fe.sent = s.fe.sent.filter (fun f => !acked f) ∧
        u.counter .acked = s.counter .acked + BitVec.ofNat 32 (s.fe.sent.filter acked).length ∧
        ((s.journal.entries.map fun e => (e.win, e.first)).Nodup →
          u.journal.entries.filter (fun e => e.seq.isSome) =
            s.journal.entries.filter (fun e => e.seq.isSome && !delivered e) ∧
          ∀ e ∈ s.journal.entries, delivered e = true → ∀ w g, s.win e.win = some w → e.Covers e.win g →
            (∀ x ∈ s.journal.entries, x.Covers e.win g → x = e) → ∃ v, u.win e.win = some v ∧
              (w.granState g = .inFlight → v.granState g = .idle) ∧
              (w.granState g = .inFlightAgain → Requeued w v g)))

/-- R94 to R100: what a good beacon does to the Cycle Timer, and that it does nothing else. From the reference node, a small error
steps the phase, changes the trim, takes the cycle number and locks the timing, and a clamped trim raises TRIM_LIMIT. A step brings
the events of R100: forward into another slot than L that slot's event, with L the slot landed in; over the wrap, suppressed or
not, the cycle-start event before it; back over the wrap none, but a suppression. They are taken in the step, so that a window
turned by a wrap that the step crosses reports the event's cycle number (R154). A large error is counted, and the third in a row
realigns; in SEARCH with FREE timing the first beacon aligns the phase; any other leaves the timer alone. The model's choices: the
events' shares are taken in the step (notes/assumptions/7.md), and node numbers 0 and 255, which no node has, time the phase like
any other node not the reference (notes/assumptions/24.md). -/
def Obligations.BeaconSetsTheTimer : Prop :=
  (∀ (u : State) (node phase : Nat) (cycle : Word) (phiA : BitVec 40),
    let expected : BitVec 40 := BitVec.ofNat 40 (phase * 2 ^ 34 + u.params.lam * 2 ^ 19)
    let err := (expected - phiA).toInt.tdiv (2 ^ 19)
    let byRole := fun x : Role => ∃ e, u.link.holder x = some e ∧ e.node = node
    let reference := (u.link.state = .served ∨ u.link.state = .handoff) ∧ byRole .serving ∨
      u.link.state = .joining ∧ byRole .target
    let aligned := { u.timer with
      phi := expected, cycle := cycle, last := expected.toNat / 2 ^ 34, suppress := false }
    (reference → err.natAbs ≤ 16384 → u.params.kp ≤ 16 →
      let ticks : Int := (err * u.params.kp).tdiv 16
      let sum : Int := u.timer.phi.toNat + ticks * 2 ^ 19
      let ended := u.timer.phi.toNat / 2 ^ 34
      let stepped := { u.timer with phi := u.timer.phi + BitVec.ofInt 40 (ticks * 2 ^ 19), taken := true }
      let k := stepped.phi.toNat / 2 ^ 34
      ∃ v : State,
        (ticks < 0 → v = { u with timer := { stepped with suppress := u.timer.suppress || decide (sum < 0) } }) ∧
        (0 ≤ ticks → sum < 2 ^ 40 → k = ended ∨ k = u.timer.last → v = { u with timer := stepped }) ∧
        (0 ≤ ticks → sum < 2 ^ 40 → k ≠ ended → k ≠ u.timer.last → v =
          { u with timer := { stepped with last := k }, due := [] }.afterShares (u.due ++ u.slotShares k ended)) ∧
        (2 ^ 40 ≤ sum → k = 0 ∧ ended = 63 ∧ v =
          { u with timer := { stepped with cycle := u.timer.cycle + 1, suppress := false, last := 0 }, due := [] }.afterShares
            (u.due ++ u.cycleShares (u.timer.cycle + 1) ++ if u.timer.last = 0 then [] else u.slotShares 0 63)) ∧
        let change : Int := if 0 ≤ err then (err * v.params.ki + 32) / 64 else -((-err * v.params.ki + 32) / 64)
        let trim := max (-128) (min 127 (v.timer.trim + change))
        u.timeBeacon node phase cycle phiA = { v with
          timer := { v.timer with
            trim := trim, cycle := if 32 * 2 ^ 34 ≤ v.timer.phi.toNat then cycle - 1 else cycle
            timing := .locked, holdover := 0, run := 0 }
          status := if trim = v.timer.trim + change then v.status
            else { v.status with pending := v.status.raised 0x200 } }) ∧
    (reference → 16384 < err.natAbs → u.timer.run < 2 →
      u.timeBeacon node phase cycle phiA = { u with timer := { u.timer with run := u.timer.run + 1 } }) ∧
    (reference → 16384 < err.natAbs → 2 ≤ u.timer.run → u.timeBeacon node phase cycle phiA = { u with
      timer := { aligned with run := 0, taken := true }
      status := { u.status with counters := u.status.counters.set 20 (u.status.counters[20] + 1) } }) ∧
    (u.link.state = .search → u.timer.timing = .free → u.timer.coarse = false →
      u.timeBeacon node phase cycle phiA = { u with timer := { aligned with coarse := true } }) ∧
    (¬ reference → u.link.state ≠ .search ∨ u.timer.timing ≠ .free ∨ u.timer.coarse = true →
      u.timeBeacon node phase cycle phiA = u)) ∧
  ∀ (s : State) (r : Reception) (bytes : List Byte) (b : Beacon), Receiving s r bytes (.beacon b) →
    let expected : BitVec 40 := BitVec.ofNat 40 (b.phase * 2 ^ 34 + s.params.lam * 2 ^ 19)
    let err := (expected - r.phi).toInt.tdiv (2 ^ 19)
    let byRole := fun x : Role => ∃ e, s.link.holder x = some e ∧ e.node = b.node
    let reference := (s.link.state = .served ∨ s.link.state = .handoff) ∧ byRole .serving ∨
      s.link.state = .joining ∧ byRole .target
    let aligned := { s.timer with
      phi := expected, cycle := b.cycle, last := expected.toNat / 2 ^ 34, suppress := false }
    NeighbourLaw s →
    (∃ u : State, exec (.beacon bytes) s = .next (u.timeBeacon b.node b.phase b.cycle r.phi).arbitrate ∧
      JournalOnly { s with link := u.link, fe := u.fe } u ∧ u.link = { s.link with
        table := u.link.table, keptServing := u.link.keptServing, keptTarget := u.link.keptTarget } ∧
      ∀ x node, x ≠ .none → ((∃ e, u.link.holder x = some e ∧ e.node = node) ↔
        ∃ e, s.link.holder x = some e ∧ e.node = node)) ∧
    (reference → err.natAbs ≤ 16384 → ∃ t : State, exec (.beacon bytes) s = .next t.arbitrate ∧
      let ticks : Int := (err * s.params.kp).tdiv 16
      let phi : BitVec 40 := s.timer.phi + BitVec.ofInt 40 (ticks * 2 ^ 19)
      let change : Int := if 0 ≤ err then (err * s.params.ki + 32) / 64 else -((-err * s.params.ki + 32) / 64)
      let trim := max (-128) (min 127 (s.timer.trim + change))
      let cycle := if 32 * 2 ^ 34 ≤ phi.toNat then b.cycle - 1 else b.cycle
      t.timer.phi = phi ∧ t.timer.trim = trim ∧ t.timer.cycle = cycle ∧ t.timer.timing = .locked ∧
      t.timer.holdover = 0 ∧ t.timer.run = 0 ∧ (s.due = [] → t.due = []) ∧
      (ticks < 0 ∨ s.params.kp ≤ 16 ∧ phi.toNat / 2 ^ 34 = s.timer.phi.toNat / 2 ^ 34 → t.due = s.due ∧
        t.timer = { s.timer with
          phi := phi, trim := trim, cycle := cycle, timing := .locked, holdover := 0, run := 0, taken := true
          suppress := s.timer.suppress || decide ((s.timer.phi.toNat : Int) + ticks * 2 ^ 19 < 0) }) ∧
      ∀ n w, n ≠ 0 → s.held = false → s.due = [] → 2 ^ 40 ≤ (s.timer.phi.toNat : Int) + ticks * 2 ^ 19 →
        s.win n = some w → w.state = .pending → s.mbox.work = .enbw n →
        t.mbox.state = .done ∧ t.mbox.response.data = twoBytes (s.timer.cycle + 1).toNat ∧
          ∃ v, t.win n = some v ∧ v.state = .live) ∧
    (reference → 16384 < err.natAbs → s.timer.run < 2 → ∃ t : State, exec (.beacon bytes) s = .next t.arbitrate ∧
      t.timer = { s.timer with run := s.timer.run + 1 } ∧ t.due = s.due) ∧
    (reference → 16384 < err.natAbs → 2 ≤ s.timer.run → ∃ t : State, exec (.realign bytes) s = .next t.arbitrate ∧
      exec (.beacon bytes) s = .next t.arbitrate ∧ t.timer = { aligned with run := 0, taken := true } ∧ t.due = s.due ∧
      t.counter .realigns = s.counter .realigns + 1) ∧
    (s.link.state = .search → s.timer.timing = .free → s.timer.coarse = false → ∃ t : State,
      exec (.beacon bytes) s = .next t.arbitrate ∧ t.timer = { aligned with coarse := true } ∧ t.due = s.due) ∧
    (¬ reference → s.link.state ≠ .search ∨ s.timer.timing ≠ .free ∨ s.timer.coarse = true → ∃ t : State,
      exec (.beacon bytes) s = .next t.arbitrate ∧ t.timer = s.timer ∧ t.due = s.due)

/-- R140, R141, R142: a downlink frame is accepted only from the serving node, for this car or for all, in a slot granted
DOWN to the same destination. An accepted one is counted, a directed one enters the receive record, and its records are
held for delivery; any other has no effect. The model's choice: a frame without records holds no delivery buffer
(notes/assumptions/45.md). -/
def Obligations.DownlinkIsAccepted : Prop :=
  ∀ (s : State) (r : Reception) (bytes : List Byte) (d : Downlink), Receiving s r bytes (.downlink d) →
    let accepted := (s.link.state = .served ∨ s.link.state = .handoff) ∧
      (∃ e, s.link.table.find? (fun e => decide (e.role = .serving)) = some e ∧ e.node = d.node) ∧
      (d.dest = s.link.car ∨ d.dest = 0) ∧ r.down = some d.dest
    let ahead := (d.seq - s.fe.rxBase).toNat
    let back := (s.fe.rxBase - d.seq).toNat
    (¬ accepted → exec (.downlinkFrame bytes) s = .next (State.arbitrate { s with fe := { s.fe with rx := none } })) ∧
    (accepted → exec (.downlinkFrame bytes) s = .next (State.arbitrate { s with
      status := { s.status with counters := s.status.counters.set 11 (s.status.counters[11] + 1) }
      fe := { s.fe with
        rx := none
        rxBase := if d.dest ≠ 0 ∧ (s.fe.rxMap = 0 ∨ 1 ≤ ahead ∧ ahead ≤ 127) then d.seq else s.fe.rxBase
        rxMap := if d.dest = 0 then s.fe.rxMap
          else if s.fe.rxMap = 0 then 1
          else if ahead = 0 then s.fe.rxMap
          else if ahead ≤ 127 then (s.fe.rxMap <<< ahead) ||| 1
          else if back ≤ 15 then s.fe.rxMap ||| ((1 : Word) <<< back)
          else s.fe.rxMap
        ackPending := s.fe.ackPending || decide (d.dest ≠ 0)
        delivery := if d.records = [] then s.fe.delivery else s.fe.delivery ++ [d.records] } }))

/-- R133, R179, R106, R142: a bad frame is counted and a frame of another kind is dropped. A start delimiter takes a frame
only with RON and LOCK high, while the part listens and no frame is being taken, and with a delivery buffer free. That the row
lets the ticks before the delimiter pass first is the model's choice, notes/assumptions/1.md, and so is that the frame's DOWN grant
is that of the slot begun last, notes/assumptions/43.md. -/
def Obligations.OtherReception : Prop :=
  ∀ s : State,
    (∀ r bytes, Receiving s r bytes .bad → exec (.badCrcFrame bytes) s = .next (State.arbitrate { s with
      fe := { s.fe with rx := none }
      status := { s.status with counters := s.status.counters.set 12 (s.status.counters[12] + 1) } })) ∧
    (∀ r bytes, Receiving s r bytes .foreign →
      exec (.foreignFrame bytes) s = .next (State.arbitrate { s with fe := { s.fe with rx := none } })) ∧
    (∀ level : Byte,
      let takes := s.held = false ∧ s.link.state ≠ .off ∧ s.link.lock = true ∧ s.fe.listening = true ∧
        s.fe.rx = none ∧ s.fe.delivery.length < 2
      (takes → exec (.startDelimiter 0 level) s = .next (State.arbitrate { s with fe := { s.fe with
        rx := some { phi := s.timer.phi, level := level.toNat, down := s.fe.down, wrapped := false } } })) ∧
      (¬ takes → exec (.startDelimiter 0 level) s = .next s.arbitrate)) ∧
    (∀ ticks level u, s.pending = [] → step s = .next u →
      exec (.startDelimiter (ticks + 1) level) s = exec (.startDelimiter ticks level) u)

/-- R107: TXK is asserted exactly while a frame is being sent. R136, R64, R104: a record read puts topic, revision, run and
bytes of the publishing image into its frame, and ends a best-effort record: its granules in flight become IDLE, and those
changed again are queued. R107, R132: a frame whose records are read ends with its CRC; one whose next record is not read is cut
off, its reads going on to their grants. The model's choices: a frame's bytes, from the start delimiter on, appear together at its
end, and rows say when it ends or is cut off (notes/assumptions/6.md); reads left over no longer feed a frame, and a read whose
place was purged and defined afresh as PUBLISH since takes its record from the definition that stands, a granule past that
window's end from pool granule 0 (notes/assumptions/16.md). -/
def Obligations.TransmissionSteps : Prop :=
  ∀ s : State,
    (s.txk = true ↔ ∃ x, s.fe.tx = some x) ∧
    (∀ j rest, s.port = some .frame → s.fe.writing = none → s.fe.reads = j :: rest →
      (∀ (w : Window) p fe, s.win j.win = some w → w.defn.body = .publish p →
        (j.ofFrame = false ∧ fe = { s.fe with reads := rest } ∨
          ∃ x map, j.ofFrame = true ∧ s.fe.tx = some x ∧ map = (if p.mode = .onWrite then w.mapA else w.mapB) ∧
            let gs := (List.range (j.last + 1 - j.first)).map (j.first + ·)
            let record := airWord (BitVec.ofNat 16 p.topic) ++ airWord w.pub.revision ++
              [BitVec.ofNat 8 j.first, BitVec.ofNat 8 gs.length] ++
              gs.flatMap fun g => (List.range 16).map fun i => s.pool.mem.read 0 (16 * map.getD g 0 + i)
            fe = { s.fe with reads := rest, tx := some { body := x.body ++ record } }) →
        (j.bestEffort = false ∨ j.purged = true →
          exec .recordRead s = .next (State.arbitrate { s with port := none, fe := fe })) ∧
        (j.bestEffort = true → j.purged = false → ∃ t : State, ∃ v, exec .recordRead s = .next t.arbitrate ∧
          JournalOnly { s with port := none, fe := fe } t ∧ t.win j.win = some v ∧
          t.journal.entries.filter (fun e => e.seq.isSome) = s.journal.entries.filter (fun e => e.seq.isSome) ∧
          ∀ g, j.first ≤ g → g ≤ j.last → (w.granState g = .inFlight → v.granState g = .idle) ∧
            (w.granState g = .inFlightAgain → Requeued w v g)))) ∧
    (∀ x, s.fe.tx = some x → (∀ j ∈ s.fe.reads, j.ofFrame = false) → exec .transmissionEnd s = .next (State.arbitrate
      { s with fe := { s.fe with tx := none, ftx := [0xA6, 0xC3] ++ withCrc x.body } })) ∧
    (∀ x j, s.fe.tx = some x → j ∈ s.fe.reads → j.ofFrame = true → exec .frameCutOff s = .next (State.arbitrate { s with
      fe := { s.fe with
        tx := none, ftx := [0xA6, 0xC3] ++ x.body, reads := s.fe.reads.map fun j => { j with ofFrame := false } } }))

/-- R76 to R82, R84: a delivery record whose topic matches no LIVE SUBSCRIBE window is discarded without a grant. Under its grant,
one for an ungrouped window is discarded when it runs past the window or is older, and else written granule by granule; one for a
group's member is discarded when it is not newer than the group's revision, or else begins a staging, joins the one in progress,
supersedes it with a discard, or is discarded as older. Before each granule and before the last step the record is abandoned when
its window is not LIVE any more, as DISW under the grant makes it, or its staging is not the one it joined. After the last granule
the group's LIVE members swap their images when every one of them is wholly staged. -/
def Obligations.DeliveryRecordIsApplied : Prop :=
  (∀ (s : State) (d : Delivery) (ds : List Delivery) (fs : List (List Delivery)), s.fe.writing = none →
    s.fe.delivery = (d :: ds) :: fs →
    let rest := if ds = [] then fs else ds :: fs
    let matching := fun (n : WinNo) (w : Window) (x : SubscribeDef) =>
      n ≠ 0 ∧ s.win n = some w ∧ w.state = .live ∧ w.defn.body = .subscribe x ∧ x.topic = d.topic
    let newer := fun held : Option Word =>
      ∀ o, held = some o → 1 ≤ (d.revision - o).toNat ∧ (d.revision - o).toNat ≤ 32767
    let discarded := { s with
      fe := { s.fe with delivery := rest }
      status := { s.status with counters := s.status.counters.set 14 (s.status.counters[14] + 1) } }
    (∀ moves, (∀ n w x, ¬ matching n w x) → exec (.deliveryRecord moves) s = .next discarded.arbitrate) ∧
    ∀ n w x, matching n w x → (∀ m v y, matching m v y → m = n) → s.port = some .frame →
      (∀ j ∈ s.fe.reads, j.ofFrame = false) →
      let active := if w.ov.swapped then w.mapB else w.mapA
      let idle := if w.ov.swapped then w.mapA else w.mapB
      let granules := w.defn.length / 16
      let written := fun (map : List Nat) (m : Memory) => ∀ a, m.read 0 a =
        if ∃ i, i < d.data.length ∧ a / 16 = map.getD (d.first + i) 0 then
          ((d.data.zipIdx.find? fun p => map.getD (d.first + p.2) 0 == a / 16).map fun p =>
            p.1.getD (a % 16) 0).getD 0
        else s.pool.mem.read 0 a
      let begun := fun (base : State) (staging : Option Word) => { base with
        fe := { s.fe with writing := some { win := n, written := 0, staging := staging } }
        status := { base.status with counters := base.status.counters.set 13 (base.status.counters[13] + 1) } }
      (granules < d.first + d.data.length ∨
          (x.group = 0 ∧ ∃ o, w.ov.revision = some o ∧ 32768 ≤ (d.revision - o).toNat) ∨
          (x.group ≠ 0 ∧ ¬ newer s.groups[x.group].revision) →
        ∀ moves, exec (.deliveryRecord moves) s = .next (State.arbitrate { discarded with port := none })) ∧
      (d.first + d.data.length ≤ granules → x.group = 0 →
        (∀ o, w.ov.revision = some o → (d.revision - o).toNat ≤ 32767) →
        ∀ moves, exec (.deliveryRecord moves) s = exec (.deliveryRecord moves) (begun s none)) ∧
      (d.first + d.data.length ≤ granules → x.group ≠ 0 → newer s.groups[x.group].revision → ∀ moves,
        let group := s.groups[x.group]
        let emptied := { s with
          places := s.places.map fun o => o.map fun v => if v.group = x.group then v.unstaged else v
          groups := s.groups.set x.group { group with staging := some d.revision, age := 0 } }
        (group.staging = none →
          exec (.deliveryRecord moves) s = exec (.deliveryRecord moves) (begun emptied (some d.revision))) ∧
        ∀ o, group.staging = some o →
          (o = d.revision →
            exec (.deliveryRecord moves) s = exec (.deliveryRecord moves) (begun s (some d.revision))) ∧
          (1 ≤ (d.revision - o).toNat → (d.revision - o).toNat ≤ 32767 →
            exec (.deliveryRecord moves) s = exec (.deliveryRecord moves) (begun { emptied with status := { s.status with
              pending := s.status.raised 0x100
              counters := s.status.counters.set 16 (s.status.counters[16] + 1) } } (some d.revision))) ∧
          (32768 ≤ (d.revision - o).toNat →
            exec (.deliveryRecord moves) s = .next (State.arbitrate { discarded with port := none }))) ∧
      (MemoryLaw s → (∀ g ∈ d.data, g.length = 16) → d.first + d.data.length ≤ granules → active.Nodup →
        active.length = granules → w.ov.present.length = granules → x.group = 0 →
        (∀ o, w.ov.revision = some o → (d.revision - o).toNat ≤ 32767) →
        ∃ t : State, ∃ v, exec (.deliveryRecord (d.data.length + 1)) s = .next t.arbitrate ∧ t.win n = some v ∧
          t = { s with port := none, places := t.places, pool := t.pool, fe := t.fe, status := t.status } ∧
          (∀ m, m ≠ n → t.win m = s.win m) ∧ t.fe = { s.fe with delivery := rest } ∧
          t.counter .applied = s.counter .applied + 1 ∧ written active t.pool.mem ∧ v.ov.age = 0 ∧
          v.ov.revision = some d.revision ∧
          (∀ g, g < granules → v.ov.present.getD g false =
            (w.ov.present.getD g false || decide (d.first ≤ g ∧ g < d.first + d.data.length))) ∧
          (v.ov.state = .expired ↔ w.ov.state = .expired ∧ (∃ word, x.action = .fallback word) ∧
            ∃ g, g < granules ∧ v.ov.present.getD g false = false) ∧
          (v.ov.state = .expired ∨ v.ov.state = .fresh)) ∧
      (MemoryLaw s → (∀ g ∈ d.data, g.length = 16) → d.first = 0 → d.data.length = granules → idle.Nodup →
        idle.length = granules → w.ov.staged.length = granules → x.group ≠ 0 →
        (∀ m v, m ≠ n → s.win m = some v → v.state = .live → v.group ≠ x.group) →
        s.groups[x.group].staging = none → newer s.groups[x.group].revision →
        ∃ t : State, exec (.deliveryRecord (d.data.length + 1)) s = .next t.arbitrate ∧ t.fe = { s.fe with delivery := rest } ∧
          t = { s with port := none, places := t.places, pool := t.pool, groups := t.groups, fe := t.fe
                       status := t.status } ∧
          t.win n = some { w with ov := { w.ov with
            swapped := !w.ov.swapped, present := List.replicate granules true
            staged := List.replicate granules false, age := 0, state := .fresh } } ∧
          written idle t.pool.mem ∧ t.counter .applied = s.counter .applied + 1 ∧
          t.counter .groupsApplied = s.counter .groupsApplied + 1 ∧
          t.groups = s.groups.set x.group { revision := some d.revision, staging := none, age := 0 })) ∧
  (∀ (s : State) (j : Writing) (d : Delivery) (ds : List Delivery) (fs : List (List Delivery)), s.fe.writing = some j →
    s.fe.delivery = (d :: ds) :: fs →
    let rest := if ds = [] then fs else ds :: fs
    let finished := { s with port := none, fe := { s.fe with writing := none, delivery := rest } }
    ((∀ w, s.win j.win = some w → w.state ≠ .live ∨
        ∃ rev, j.staging = some rev ∧ s.groups[w.group].staging ≠ some rev) →
      ∀ moves, exec (.deliveryRecord (moves + 1)) s = .next finished.arbitrate) ∧
    ∀ w, s.win j.win = some w → w.state = .live → MemoryLaw s →
      (∀ bytes, d.data[j.written]? = some bytes → bytes.length = 16 →
        let g := d.first + j.written
        let wrote := fun (mem : Memory) (ov : Overlay) => { s with
          pool := { s.pool with mem := mem }, places := s.places.set j.win (some { w with ov := ov })
          fe := { s.fe with writing := some { j with written := j.written + 1 } } }
        ∀ map ov, (j.staging = none ∧ map = (if w.ov.swapped then w.mapB else w.mapA) ∧
              ov = { w.ov with present := w.ov.present.set g true } ∨
            (∃ rev, j.staging = some rev ∧ s.groups[w.group].staging = some rev) ∧
              map = (if w.ov.swapped then w.mapA else w.mapB) ∧
              ov = { w.ov with staged := w.ov.staged.set g true }) →
          ∃ mem, GranuleFilled s.pool.mem mem (map.getD g 0) (fun i => bytes.getD i 0) ∧
            ∀ moves, exec (.deliveryRecord (moves + 1)) s = exec (.deliveryRecord moves) (wrote mem ov)) ∧
      (d.data[j.written]? = none →
        (∀ x, w.defn.body = .subscribe x → j.staging = none → ∀ moves,
          exec (.deliveryRecord (moves + 1)) s = .next (State.arbitrate { finished with
            places := s.places.set j.win (some { w with ov := { w.ov with
              revision := if w.ov.revision.all fun o => decide (1 ≤ (d.revision - o).toNat) &&
                decide ((d.revision - o).toNat ≤ 32767) then some d.revision else w.ov.revision
              age := 0
              state := match x.action with
                | .fallback _ => if w.ov.state = .expired ∧ ¬ ∀ g < w.defn.length / 16, w.ov.present.getD g false = true
                    then .expired else .fresh
                | .hold | .release => .fresh } }) })) ∧
        ∀ rev, j.staging = some rev → s.groups[w.group].staging = some rev → w.group ≠ 0 → ∀ moves,
          let whole := ∀ m v, m ≠ 0 → s.win m = some v → v.state = .live → v.group = w.group →
            ∀ g, g < v.defn.length / 16 → v.ov.staged.getD g false = true
          (¬ whole → exec (.deliveryRecord (moves + 1)) s = .next finished.arbitrate) ∧
          (whole → exec (.deliveryRecord (moves + 1)) s = .next (State.arbitrate { finished with
            places := s.places.map fun o => o.map fun v =>
              if v.group ≠ w.group then v
              else if v.state ≠ .live then v.unstaged
              else { v with ov := { v.ov with
                swapped := !v.ov.swapped, present := List.replicate (v.defn.length / 16) true
                staged := v.ov.staged.map fun _ => false, age := 0, state := .fresh } }
            groups := s.groups.set w.group { revision := some rev, staging := none, age := 0 }
            status := { s.status with
              counters := s.status.counters.set 15 (s.status.counters[15] + 1) } })))) ∧
  ∀ (s : State) (n : WinNo) (w : Window), s.held = false → s.rst.phase = .running → s.port = some .frame →
    s.fe.writing.isSome = true → s.mbox.state = .busy → s.mbox.code = 0xA103 → s.mbox.work = .checks →
    s.mbox.snapshot[0]? = some (BitVec.ofNat 16 n.val, false) → n ≠ 0 → s.win n = some w → w.state = .live →
    ∃ t : State, ∃ v, exec .disw s = .next t ∧ t.port = s.port ∧ t.fe = s.fe ∧ t.win n = some v ∧ v.state = .closing

/-- R105: RON is high in every link state but OFF, and while it is low LOCK has no effect. R118: a rise of LOCK in STARTING
takes the link to SEARCH, and a JOIN in progress completes and sets the auto-join flag. R119, R107, R64, R136: a fall of LOCK
takes the link to STARTING: a frame being sent or received ends, and with it its own reads, whose best-effort granules are
handled as if read, while the reads of a frame cut off before go on; every role is lost, grants and requests are given up,
frames in flight are reverted, and LINK_LOST is raised from SERVED and HANDOFF. The model's choices: the whole join request
state is cleared (notes/assumptions/26.md), the last tested node becomes none with the persistence (notes/assumptions/44.md), and
reads left over no longer feed a frame (notes/assumptions/16.md). -/
def Obligations.LockChanges : Prop :=
  ∀ s : State,
    let none' : JoinRequest := { tries := 0, wait := 0, due := none, sent := false, ends := 0 }
    (s.link.lock = false → s.link.state = .starting →
      let u := { s with
        link := { s.link with state := .search, lock := true, join := none', keptTarget := none, grants := [] }
        timer := { s.timer with coarse := false } }
      exec .lockRise s = .next (State.arbitrate (if s.mbox.work = .join then
        { u with link := { u.link with autoJoin := true } }.completed .ok [] else u))) ∧
    (s.link.lock = false → s.link.state ≠ .off → s.link.state ≠ .starting →
      exec .lockRise s = .next (State.arbitrate { s with link := { s.link with lock := true } })) ∧
    (s.ron = true ↔ s.link.state ≠ .off) ∧
    (s.ron = false → exec .lockRise s = .next s.arbitrate ∧ exec .lockFall s = .next s.arbitrate) ∧
    (s.link.lock = true → s.link.state ≠ .off → s.link.state ≠ .starting → NeighbourLaw s → RoleLaw s →
      let linked := s.link.state = .served ∨ s.link.state = .handoff
      let best := fun j : ReadJob => j.ofFrame && j.bestEffort && !j.purged
      ∃ t : State, exec .lockFall s = .next t.arbitrate ∧
      JournalOnly { s with
        port := t.port, link := t.link, fe := t.fe, timer := t.timer
        status := { s.status with served := t.status.served } } t ∧
      t.port = (if s.port = some .frame ∧ s.fe.writing = none ∧ s.fe.reads.head?.any ReadJob.ofFrame = true
        then none else s.port) ∧
      t.fe = { s.fe with tx := none, rx := none, sent := [], reads := s.fe.reads.filter fun j => !j.ofFrame } ∧
      t.timer = { s.timer with run := if s.link.state = .search then s.timer.run else 0 } ∧
      t.status.served = (if linked then 0 else s.status.served) ∧
      (linked → s.status.record.getLsbD 1 = true → t.status.pending.getLsbD 1 = true) ∧
      (∃ prev, t.link = { s.link with
          state := .starting, lock := false, startCount := 0, table := rolesLost s.params s.link.table, grants := []
          join := none', keptServing := none, keptTarget := none, persist := 0, lastTested := none, prevNode := prev } ∧
        (∀ e, linked → s.link.holder .serving = some e → prev = e.node) ∧ (¬ linked → prev = s.link.prevNode)) ∧
      (∀ e ∈ t.journal.entries, e.seq = none) ∧
      ((∀ j ∈ s.fe.reads, best j = false) → Reverted s t ∧
        t.status = if linked then { s.status with pending := s.status.raised 0x002, served := 0 } else s.status) ∧
      (CoverLaw s → ∀ j ∈ s.fe.reads, best j = true → ∀ w g, s.win j.win = some w → j.first ≤ g → g ≤ j.last →
        ∃ v, t.win j.win = some v ∧ (w.granState g = .inFlight → v.granState g = .idle) ∧
          (w.granState g = .inFlightAgain → Requeued w v g)))

/-! ### Invariants -/

/-- Every law below holds in the state right after power-on (R14, R22 to R29, R37, R57, R58, R63, R91, R109, R134, R137,
R142). -/
def Obligations.ResetMeetsTheLaws : Prop :=
  TapLaw State.reset ∧ MemoryLaw State.reset ∧ TrimLaw State.reset ∧ JournalLaw State.reset ∧
    NeighbourLaw State.reset ∧ FrameLaw State.reset ∧ TableLaw State.reset ∧ PoolLaw State.reset ∧
    WindowsLaw State.reset ∧ ShapeLaw State.reset ∧ PortLaw State.reset ∧ StartLaw State.reset ∧ ClearLaw State.reset ∧ RoleLaw State.reset ∧
    CoverLaw State.reset ∧ CarryLaw State.reset

/-- R14, R16: every step keeps the bounds of the Capture FIFO and of its peak, and the loss set is not empty only while the FIFO
is full. R37 to R39: after every step the port serves a grant of the requester granted last that has work for it, and is free only while
nobody waits; the entry that a drain step in progress took is still in the FIFO. -/
def Obligations.EveryStepKeepsTheTap : Prop :=
  ∀ s t : State, step s = .next t → (TapLaw s → TapLaw t) ∧ (PortLaw s → PortLaw t)

/-- Every step keeps the canonical form of the image pool, the window 0 image and the Profile Store, so that equal
memories are equal data. -/
def Obligations.EveryStepKeepsTheMemories : Prop :=
  ∀ s t : State, MemoryLaw s → step s = .next t → MemoryLaw t

/-- R57, R91, R109, R134, R137, R142: every step keeps the journal's length, runs and class order, the neighbour table's size and
distinct nodes, the frame engine's limits, and the trim's range. R118, R145, R173: until start-up ends the link stays OFF and no
command is in progress. R109: the SERVING and TARGET entries are those the link state has. R58, R64: every step keeps the coverage
law: no granule is covered twice, and a granule has the state of what covers it. R63: every IN_FLIGHT entry is carried by exactly
one sent-frame record, and every entry carried is IN_FLIGHT. -/
def Obligations.EveryStepKeepsTheTables : Prop :=
  ∀ s t : State, step s = .next t → (JournalLaw s → JournalLaw t) ∧ (NeighbourLaw s → NeighbourLaw t) ∧
    (FrameLaw s → FrameLaw t) ∧ (TrimLaw s → TrimLaw t) ∧
    (PortLaw s → StartLaw s → StartLaw t ∧ (NeighbourLaw s → RoleLaw s → RoleLaw t) ∧
      (TableLaw s → ShapeLaw s → JournalLaw s → ClearLaw s → CoverLaw s → CoverLaw t ∧ (CarryLaw s → CarryLaw t)))

/-- R22 to R24, R26, R29, R36: every step keeps the window table and the pool together: place 0 is never defined and no
place is before start-up ends; no two windows overlap, share a topic in a kind or are both STATUS; and every granule of a
usable pool is free or held by one window for one image. R26: the maps and flags of every window keep the lengths its
definition gives them. R28, R153, R171: the granules still to be cleared stay those of IDLE windows. -/
def Obligations.EveryStepKeepsThePool : Prop :=
  ∀ s t : State, PortLaw s → StartLaw s → step s = .next t →
    (TableLaw s → PoolLaw s → WindowsLaw s → TableLaw t ∧ PoolLaw t ∧ WindowsLaw t) ∧ (ShapeLaw s → ShapeLaw t) ∧
      (ClearLaw s → ClearLaw t)
end

