-- ==== Sys2Proof/Laws/Memory.lean ====
section
/-! SUPPORT. The basic laws of an addressed memory: a read after a write, and every memory operation keeps the canonical
form. -/

section

set_option Elab.async false


namespace Sys2Proof.Machine

/-- Every listed address of a canonical memory is at least the bound. -/
def Memory.from (a : Nat) (m : Memory) : Prop := ∀ c ∈ m, a ≤ c.1

theorem Memory.wf_tail {d : Byte} {c : Host.Cell} {m : Memory} (h : Memory.wf d (c :: m) = true) :
    Memory.wf d m = true := by
  cases m with
  | nil => rfl
  | cons c' m => simp_all [Memory.wf]

/-- The head of a canonical memory: its byte is listed for a reason, and the rest lies above it. -/
theorem Memory.wf_cons {d : Byte} {k : Nat} {v : Byte} {m : Memory} :
    Memory.wf d ((k, v) :: m) = true ↔ v ≠ d ∧ Memory.from (k + 1) m ∧ Memory.wf d m = true := by
  induction m generalizing k v with
  | nil => simp [Memory.wf, Memory.from]
  | cons c m ih =>
    obtain ⟨k', v'⟩ := c
    simp only [Memory.wf, Bool.and_eq_true, bne_iff_ne, ne_eq, decide_eq_true_eq]
    constructor
    · rintro ⟨⟨h1, h2⟩, h3⟩
      refine ⟨h1, ?_, h3⟩
      intro c hc
      rcases List.mem_cons.mp hc with rfl | hc
      · exact h2
      · have := (ih.mp h3).2.1 c hc
        omega
    · rintro ⟨h1, h2, h3⟩
      exact ⟨⟨h1, by have := h2 (k', v') (by simp); simpa using this⟩, h3⟩

/-- What a write can list: the byte written, and what was listed before. -/
theorem Memory.mem_write {d : Byte} {m : Memory} {b : Nat} {v : Byte} {c : Host.Cell}
    (h : c ∈ Memory.write d m b v) : c.1 = b ∨ c ∈ m := by
  induction m with
  | nil =>
    unfold Memory.write at h
    split at h
    · simp at h
    · exact .inl (by simp_all)
  | cons x m ih =>
    obtain ⟨k, w⟩ := x
    unfold Memory.write at h
    split at h
    · split at h
      · exact .inr h
      · rcases List.mem_cons.mp h with rfl | h
        · exact .inl rfl
        · exact .inr h
    · split at h
      · split at h
        · exact .inr (List.mem_cons_of_mem _ h)
        · rcases List.mem_cons.mp h with rfl | h
          · exact .inl rfl
          · exact .inr (List.mem_cons_of_mem _ h)
      · rcases List.mem_cons.mp h with rfl | h
        · exact .inr (List.mem_cons_self ..)
        · exact (ih h).imp id (List.mem_cons_of_mem _)

theorem Memory.from_write {d : Byte} {m : Memory} {a b : Nat} {v : Byte} (h : Memory.from a m) (hb : a ≤ b) :
    Memory.from a (Memory.write d m b v) := by
  intro c hc
  rcases Memory.mem_write hc with e | e
  · omega
  · exact h c e

theorem Memory.from_mono {m : Memory} {a b : Nat} (h : Memory.from b m) (hab : a ≤ b) : Memory.from a m :=
  fun c hc => le_trans hab (h c hc)

/-- A write keeps the canonical form. -/
theorem Memory.wf_write {d : Byte} {m : Memory} (a : Nat) (v : Byte) (h : Memory.wf d m = true) :
    Memory.wf d (Memory.write d m a v) = true := by
  induction m with
  | nil => unfold Memory.write; split <;> simp_all [Memory.wf]
  | cons c m ih =>
    obtain ⟨k, w⟩ := c
    obtain ⟨hw, hf, hm⟩ := Memory.wf_cons.mp h
    unfold Memory.write
    by_cases h1 : a < k
    · rw [if_pos h1]
      by_cases hv : v = d
      · rw [if_pos hv]; exact h
      · rw [if_neg hv]
        refine Memory.wf_cons.mpr ⟨hv, ?_, h⟩
        intro c hc
        rcases List.mem_cons.mp hc with rfl | hc
        · exact h1
        · have := hf c hc; omega
    · rw [if_neg h1]
      by_cases h2 : a = k
      · rw [if_pos h2]
        by_cases hv : v = d
        · rw [if_pos hv]; exact hm
        · rw [if_neg hv]; exact Memory.wf_cons.mpr ⟨hv, h2 ▸ hf, hm⟩
      · rw [if_neg h2]
        exact Memory.wf_cons.mpr ⟨hw, Memory.from_write hf (by omega), ih hm⟩

/-- Writing many bytes keeps the canonical form. -/
theorem Memory.wf_writeAll {d : Byte} (bs : List Byte) {m : Memory} (a : Nat) (h : Memory.wf d m = true) :
    Memory.wf d (Memory.writeAll d m a bs) = true := by
  induction bs generalizing m a with
  | nil => exact h
  | cons b bs ih => exact ih (a + 1) (Memory.wf_write a b h)

/-- The empty memory is canonical. -/
theorem Memory.wf_nil (d : Byte) : Memory.wf d [] = true := rfl

theorem Memory.read_below {d : Byte} {m : Memory} {a b : Nat} (h : Memory.from b m) (hab : a < b) :
    Memory.read d m a = d := by
  induction m with
  | nil => rfl
  | cons c m ih =>
    obtain ⟨k, w⟩ := c
    have hk : b ≤ k := h (k, w) (by simp)
    unfold Memory.read
    rw [if_neg (by omega)]
    exact ih fun c hc => h c (by simp [hc])

/-- A read after a write gives the byte written at its address and what stood before at every other. -/
theorem Memory.read_write {d : Byte} {m : Memory} (a : Nat) (v : Byte) (b : Nat) (h : Memory.wf d m = true) :
    Memory.read d (Memory.write d m a v) b = if b = a then v else Memory.read d m b := by
  induction m with
  | nil =>
    unfold Memory.write
    split
    · rename_i hv; simp [Memory.read, hv]
    · by_cases e : a = b
      · simp [Memory.read, e]
      · simp [Memory.read, e, Ne.symm e]
  | cons c m ih =>
    obtain ⟨k, w⟩ := c
    obtain ⟨hw, hf, hm⟩ := Memory.wf_cons.mp h
    unfold Memory.write
    by_cases h1 : a < k
    · rw [if_pos h1]
      by_cases hv : v = d
      · rw [if_pos hv]
        split
        · subst hv
          rename_i e
          subst e
          unfold Memory.read
          rw [if_neg (by omega)]
          exact Memory.read_below hf (by omega)
        · rfl
      · rw [if_neg hv]
        by_cases e : a = b
        · simp [Memory.read, e]
        · rw [if_neg (Ne.symm e)]
          conv_lhs => unfold Memory.read
          rw [if_neg e]
    · rw [if_neg h1]
      by_cases h2 : a = k
      · subst h2
        rw [if_pos rfl]
        by_cases hv : v = d
        · rw [if_pos hv]
          by_cases e : b = a
          · rw [if_pos e, e, hv]; exact Memory.read_below hf (by omega)
          · rw [if_neg e]
            conv_rhs => unfold Memory.read
            rw [if_neg (Ne.symm e)]
        · rw [if_neg hv]
          simp only [Memory.read]
          by_cases e : b = a
          · simp [e]
          · simp [e, Ne.symm e]
      · rw [if_neg h2]
        simp only [Memory.read]
        by_cases e : k = b
        · subst e; simp [Ne.symm h2]
        · rw [if_neg e, if_neg e]; exact ih hm

/-- Writing many bytes puts each at its own address and leaves every other address as it was. -/
theorem Memory.read_writeAll {d : Byte} (bs : List Byte) {m : Memory} (a b : Nat) (h : Memory.wf d m = true) :
    Memory.read d (Memory.writeAll d m a bs) b =
      if a ≤ b ∧ b < a + bs.length then bs.getD (b - a) d else Memory.read d m b := by
  induction bs generalizing m a with
  | nil => simp [Memory.writeAll, show ¬(a ≤ b ∧ b < a) by omega]
  | cons x bs ih =>
    rw [Memory.writeAll, ih (a + 1) (Memory.wf_write a x h), Memory.read_write a x b h]
    simp only [List.length_cons]
    by_cases e : b = a
    · subst e
      rw [if_neg (by omega), if_pos rfl, if_pos (by omega)]
      simp
    · by_cases hin : a + 1 ≤ b ∧ b < a + 1 + bs.length
      · rw [if_pos hin, if_pos (by omega)]
        have : b - a = (b - (a + 1)) + 1 := by omega
        rw [this]; simp
      · rw [if_neg hin, if_neg e, if_neg (by omega)]

end Sys2Proof.Machine

end
end

