-- ==== Sys2Proof/Laws/State.lean ====
section
/-! SUPPORT. What each update of the state leaves as it was: one lemma for each update and each field it does not
touch, true by rfl. -/

section

set_option Elab.async false


namespace Sys2Proof.Machine

variable (s : State)

/-! ### `State.raise` -/

@[simp] theorem State.raise_rst (a : Alert) : (s.raise a).rst = s.rst := rfl
@[simp] theorem State.raise_straps (a : Alert) : (s.raise a).straps = s.straps := rfl
@[simp] theorem State.raise_strapPins (a : Alert) : (s.raise a).strapPins = s.strapPins := rfl
@[simp] theorem State.raise_bus (a : Alert) : (s.raise a).bus = s.bus := rfl
@[simp] theorem State.raise_tap (a : Alert) : (s.raise a).tap = s.tap := rfl
@[simp] theorem State.raise_places (a : Alert) : (s.raise a).places = s.places := rfl
@[simp] theorem State.raise_pool (a : Alert) : (s.raise a).pool = s.pool := rfl
@[simp] theorem State.raise_win0 (a : Alert) : (s.raise a).win0 = s.win0 := rfl
@[simp] theorem State.raise_arbiter (a : Alert) : (s.raise a).arbiter = s.arbiter := rfl
@[simp] theorem State.raise_port (a : Alert) : (s.raise a).port = s.port := rfl
@[simp] theorem State.raise_journal (a : Alert) : (s.raise a).journal = s.journal := rfl
@[simp] theorem State.raise_groups (a : Alert) : (s.raise a).groups = s.groups := rfl
@[simp] theorem State.raise_timer (a : Alert) : (s.raise a).timer = s.timer := rfl
@[simp] theorem State.raise_params (a : Alert) : (s.raise a).params = s.params := rfl
@[simp] theorem State.raise_link (a : Alert) : (s.raise a).link = s.link := rfl
@[simp] theorem State.raise_fe (a : Alert) : (s.raise a).fe = s.fe := rfl
@[simp] theorem State.raise_mbox (a : Alert) : (s.raise a).mbox = s.mbox := rfl
@[simp] theorem State.raise_store (a : Alert) : (s.raise a).store = s.store := rfl
@[simp] theorem State.raise_due (a : Alert) : (s.raise a).due = s.due := rfl
@[simp] theorem State.raise_freeCount (a : Alert) : (s.raise a).freeCount = s.freeCount := rfl
@[simp] theorem State.raise_pending (a : Alert) : (s.raise a).pending = s.pending := rfl
@[simp] theorem State.raise_counters (a : Alert) : (s.raise a).status.counters = s.status.counters := rfl
@[simp] theorem State.raise_record (a : Alert) : (s.raise a).status.record = s.status.record := rfl
@[simp] theorem State.raise_signal (a : Alert) : (s.raise a).status.signal = s.status.signal := rfl

/-! ### `State.countN` -/

@[simp] theorem State.countN_rst (c : Counter) (k : Nat) : (s.countN c k).rst = s.rst := rfl
@[simp] theorem State.countN_straps (c : Counter) (k : Nat) : (s.countN c k).straps = s.straps := rfl
@[simp] theorem State.countN_strapPins (c : Counter) (k : Nat) : (s.countN c k).strapPins = s.strapPins := rfl
@[simp] theorem State.countN_bus (c : Counter) (k : Nat) : (s.countN c k).bus = s.bus := rfl
@[simp] theorem State.countN_tap (c : Counter) (k : Nat) : (s.countN c k).tap = s.tap := rfl
@[simp] theorem State.countN_places (c : Counter) (k : Nat) : (s.countN c k).places = s.places := rfl
@[simp] theorem State.countN_pool (c : Counter) (k : Nat) : (s.countN c k).pool = s.pool := rfl
@[simp] theorem State.countN_win0 (c : Counter) (k : Nat) : (s.countN c k).win0 = s.win0 := rfl
@[simp] theorem State.countN_arbiter (c : Counter) (k : Nat) : (s.countN c k).arbiter = s.arbiter := rfl
@[simp] theorem State.countN_port (c : Counter) (k : Nat) : (s.countN c k).port = s.port := rfl
@[simp] theorem State.countN_journal (c : Counter) (k : Nat) : (s.countN c k).journal = s.journal := rfl
@[simp] theorem State.countN_groups (c : Counter) (k : Nat) : (s.countN c k).groups = s.groups := rfl
@[simp] theorem State.countN_timer (c : Counter) (k : Nat) : (s.countN c k).timer = s.timer := rfl
@[simp] theorem State.countN_params (c : Counter) (k : Nat) : (s.countN c k).params = s.params := rfl
@[simp] theorem State.countN_link (c : Counter) (k : Nat) : (s.countN c k).link = s.link := rfl
@[simp] theorem State.countN_fe (c : Counter) (k : Nat) : (s.countN c k).fe = s.fe := rfl
@[simp] theorem State.countN_mbox (c : Counter) (k : Nat) : (s.countN c k).mbox = s.mbox := rfl
@[simp] theorem State.countN_store (c : Counter) (k : Nat) : (s.countN c k).store = s.store := rfl
@[simp] theorem State.countN_due (c : Counter) (k : Nat) : (s.countN c k).due = s.due := rfl
@[simp] theorem State.countN_freeCount (c : Counter) (k : Nat) : (s.countN c k).freeCount = s.freeCount := rfl
@[simp] theorem State.countN_pending (c : Counter) (k : Nat) : (s.countN c k).pending = s.pending := rfl
@[simp] theorem State.countN_pending_set (c : Counter) (k : Nat) : (s.countN c k).status.pending = s.status.pending := rfl

/-! ### `State.count` -/

@[simp] theorem State.count_rst (c : Counter) : (s.count c).rst = s.rst := rfl
@[simp] theorem State.count_straps (c : Counter) : (s.count c).straps = s.straps := rfl
@[simp] theorem State.count_strapPins (c : Counter) : (s.count c).strapPins = s.strapPins := rfl
@[simp] theorem State.count_bus (c : Counter) : (s.count c).bus = s.bus := rfl
@[simp] theorem State.count_tap (c : Counter) : (s.count c).tap = s.tap := rfl
@[simp] theorem State.count_places (c : Counter) : (s.count c).places = s.places := rfl
@[simp] theorem State.count_pool (c : Counter) : (s.count c).pool = s.pool := rfl
@[simp] theorem State.count_win0 (c : Counter) : (s.count c).win0 = s.win0 := rfl
@[simp] theorem State.count_arbiter (c : Counter) : (s.count c).arbiter = s.arbiter := rfl
@[simp] theorem State.count_port (c : Counter) : (s.count c).port = s.port := rfl
@[simp] theorem State.count_journal (c : Counter) : (s.count c).journal = s.journal := rfl
@[simp] theorem State.count_groups (c : Counter) : (s.count c).groups = s.groups := rfl
@[simp] theorem State.count_timer (c : Counter) : (s.count c).timer = s.timer := rfl
@[simp] theorem State.count_params (c : Counter) : (s.count c).params = s.params := rfl
@[simp] theorem State.count_link (c : Counter) : (s.count c).link = s.link := rfl
@[simp] theorem State.count_fe (c : Counter) : (s.count c).fe = s.fe := rfl
@[simp] theorem State.count_mbox (c : Counter) : (s.count c).mbox = s.mbox := rfl
@[simp] theorem State.count_store (c : Counter) : (s.count c).store = s.store := rfl
@[simp] theorem State.count_due (c : Counter) : (s.count c).due = s.due := rfl
@[simp] theorem State.count_freeCount (c : Counter) : (s.count c).freeCount = s.freeCount := rfl
@[simp] theorem State.count_pending (c : Counter) : (s.count c).pending = s.pending := rfl

/-! ### `State.endGrant` -/

@[simp] theorem State.endGrant_rst : s.endGrant.rst = s.rst := rfl
@[simp] theorem State.endGrant_straps : s.endGrant.straps = s.straps := rfl
@[simp] theorem State.endGrant_strapPins : s.endGrant.strapPins = s.strapPins := rfl
@[simp] theorem State.endGrant_bus : s.endGrant.bus = s.bus := rfl
@[simp] theorem State.endGrant_tap : s.endGrant.tap = s.tap := rfl
@[simp] theorem State.endGrant_places : s.endGrant.places = s.places := rfl
@[simp] theorem State.endGrant_pool : s.endGrant.pool = s.pool := rfl
@[simp] theorem State.endGrant_win0 : s.endGrant.win0 = s.win0 := rfl
@[simp] theorem State.endGrant_arbiter : s.endGrant.arbiter = s.arbiter := rfl
@[simp] theorem State.endGrant_journal : s.endGrant.journal = s.journal := rfl
@[simp] theorem State.endGrant_groups : s.endGrant.groups = s.groups := rfl
@[simp] theorem State.endGrant_timer : s.endGrant.timer = s.timer := rfl
@[simp] theorem State.endGrant_params : s.endGrant.params = s.params := rfl
@[simp] theorem State.endGrant_link : s.endGrant.link = s.link := rfl
@[simp] theorem State.endGrant_fe : s.endGrant.fe = s.fe := rfl
@[simp] theorem State.endGrant_mbox : s.endGrant.mbox = s.mbox := rfl
@[simp] theorem State.endGrant_status : s.endGrant.status = s.status := rfl
@[simp] theorem State.endGrant_store : s.endGrant.store = s.store := rfl
@[simp] theorem State.endGrant_due : s.endGrant.due = s.due := rfl
@[simp] theorem State.endGrant_freeCount : s.endGrant.freeCount = s.freeCount := rfl
@[simp] theorem State.endGrant_pending : s.endGrant.pending = s.pending := rfl

/-! ### `State.arbitrate` -/

/-- A grant touches the port, the requester granted last and the learning slot, and nothing else (R38, R39). -/
theorem State.grant_eq (r : Requester) :
    ∃ o l, s.grant r = { s with arbiter := r, port := some o, tap := { s.tap with learn := l } } := by
  cases r <;> exact ⟨_, _, rfl⟩

/-- The arbiter touches the port, the requester granted last and the learning slot, and nothing else (R38, R39). -/
theorem State.arbitrate_eq :
    ∃ r o l, s.arbitrate = { s with arbiter := r, port := o, tap := { s.tap with learn := l } } := by
  unfold State.arbitrate
  split
  · exact ⟨_, _, _, rfl⟩
  · split
    · obtain ⟨o, l, h⟩ := s.grant_eq ‹_›
      exact ⟨_, _, _, h⟩
    · exact ⟨_, _, _, rfl⟩

@[simp] theorem State.arbitrate_rst : s.arbitrate.rst = s.rst := by
  obtain ⟨r, o, l, h⟩ := s.arbitrate_eq; rw [h]
@[simp] theorem State.arbitrate_straps : s.arbitrate.straps = s.straps := by
  obtain ⟨r, o, l, h⟩ := s.arbitrate_eq; rw [h]
@[simp] theorem State.arbitrate_strapPins : s.arbitrate.strapPins = s.strapPins := by
  obtain ⟨r, o, l, h⟩ := s.arbitrate_eq; rw [h]
@[simp] theorem State.arbitrate_bus : s.arbitrate.bus = s.bus := by
  obtain ⟨r, o, l, h⟩ := s.arbitrate_eq; rw [h]
@[simp] theorem State.arbitrate_fifo : s.arbitrate.tap.fifo = s.tap.fifo := by
  obtain ⟨r, o, l, h⟩ := s.arbitrate_eq; rw [h]
@[simp] theorem State.arbitrate_loss : s.arbitrate.tap.loss = s.tap.loss := by
  obtain ⟨r, o, l, h⟩ := s.arbitrate_eq; rw [h]
@[simp] theorem State.arbitrate_peak : s.arbitrate.tap.peak = s.tap.peak := by
  obtain ⟨r, o, l, h⟩ := s.arbitrate_eq; rw [h]
@[simp] theorem State.arbitrate_places : s.arbitrate.places = s.places := by
  obtain ⟨r, o, l, h⟩ := s.arbitrate_eq; rw [h]
@[simp] theorem State.arbitrate_pool : s.arbitrate.pool = s.pool := by
  obtain ⟨r, o, l, h⟩ := s.arbitrate_eq; rw [h]
@[simp] theorem State.arbitrate_win0 : s.arbitrate.win0 = s.win0 := by
  obtain ⟨r, o, l, h⟩ := s.arbitrate_eq; rw [h]
@[simp] theorem State.arbitrate_journal : s.arbitrate.journal = s.journal := by
  obtain ⟨r, o, l, h⟩ := s.arbitrate_eq; rw [h]
@[simp] theorem State.arbitrate_groups : s.arbitrate.groups = s.groups := by
  obtain ⟨r, o, l, h⟩ := s.arbitrate_eq; rw [h]
@[simp] theorem State.arbitrate_timer : s.arbitrate.timer = s.timer := by
  obtain ⟨r, o, l, h⟩ := s.arbitrate_eq; rw [h]
@[simp] theorem State.arbitrate_params : s.arbitrate.params = s.params := by
  obtain ⟨r, o, l, h⟩ := s.arbitrate_eq; rw [h]
@[simp] theorem State.arbitrate_link : s.arbitrate.link = s.link := by
  obtain ⟨r, o, l, h⟩ := s.arbitrate_eq; rw [h]
@[simp] theorem State.arbitrate_fe : s.arbitrate.fe = s.fe := by
  obtain ⟨r, o, l, h⟩ := s.arbitrate_eq; rw [h]
@[simp] theorem State.arbitrate_mbox : s.arbitrate.mbox = s.mbox := by
  obtain ⟨r, o, l, h⟩ := s.arbitrate_eq; rw [h]
@[simp] theorem State.arbitrate_status : s.arbitrate.status = s.status := by
  obtain ⟨r, o, l, h⟩ := s.arbitrate_eq; rw [h]
@[simp] theorem State.arbitrate_store : s.arbitrate.store = s.store := by
  obtain ⟨r, o, l, h⟩ := s.arbitrate_eq; rw [h]
@[simp] theorem State.arbitrate_due : s.arbitrate.due = s.due := by
  obtain ⟨r, o, l, h⟩ := s.arbitrate_eq; rw [h]
@[simp] theorem State.arbitrate_freeCount : s.arbitrate.freeCount = s.freeCount := by
  obtain ⟨r, o, l, h⟩ := s.arbitrate_eq; rw [h]
@[simp] theorem State.arbitrate_pending : s.arbitrate.pending = s.pending := by
  obtain ⟨r, o, l, h⟩ := s.arbitrate_eq; rw [h]

/-! ### `State.setPlace` -/

@[simp] theorem State.setPlace_rst (n : WinNo) (w : Option Window) : (s.setPlace n w).rst = s.rst := rfl
@[simp] theorem State.setPlace_straps (n : WinNo) (w : Option Window) : (s.setPlace n w).straps = s.straps := rfl
@[simp] theorem State.setPlace_strapPins (n : WinNo) (w : Option Window) : (s.setPlace n w).strapPins = s.strapPins := rfl
@[simp] theorem State.setPlace_bus (n : WinNo) (w : Option Window) : (s.setPlace n w).bus = s.bus := rfl
@[simp] theorem State.setPlace_tap (n : WinNo) (w : Option Window) : (s.setPlace n w).tap = s.tap := rfl
@[simp] theorem State.setPlace_pool (n : WinNo) (w : Option Window) : (s.setPlace n w).pool = s.pool := rfl
@[simp] theorem State.setPlace_win0 (n : WinNo) (w : Option Window) : (s.setPlace n w).win0 = s.win0 := rfl
@[simp] theorem State.setPlace_arbiter (n : WinNo) (w : Option Window) : (s.setPlace n w).arbiter = s.arbiter := rfl
@[simp] theorem State.setPlace_port (n : WinNo) (w : Option Window) : (s.setPlace n w).port = s.port := rfl
@[simp] theorem State.setPlace_journal (n : WinNo) (w : Option Window) : (s.setPlace n w).journal = s.journal := rfl
@[simp] theorem State.setPlace_groups (n : WinNo) (w : Option Window) : (s.setPlace n w).groups = s.groups := rfl
@[simp] theorem State.setPlace_timer (n : WinNo) (w : Option Window) : (s.setPlace n w).timer = s.timer := rfl
@[simp] theorem State.setPlace_params (n : WinNo) (w : Option Window) : (s.setPlace n w).params = s.params := rfl
@[simp] theorem State.setPlace_link (n : WinNo) (w : Option Window) : (s.setPlace n w).link = s.link := rfl
@[simp] theorem State.setPlace_fe (n : WinNo) (w : Option Window) : (s.setPlace n w).fe = s.fe := rfl
@[simp] theorem State.setPlace_mbox (n : WinNo) (w : Option Window) : (s.setPlace n w).mbox = s.mbox := rfl
@[simp] theorem State.setPlace_status (n : WinNo) (w : Option Window) : (s.setPlace n w).status = s.status := rfl
@[simp] theorem State.setPlace_store (n : WinNo) (w : Option Window) : (s.setPlace n w).store = s.store := rfl
@[simp] theorem State.setPlace_due (n : WinNo) (w : Option Window) : (s.setPlace n w).due = s.due := rfl
@[simp] theorem State.setPlace_freeCount (n : WinNo) (w : Option Window) : (s.setPlace n w).freeCount = s.freeCount := rfl
@[simp] theorem State.setPlace_pending (n : WinNo) (w : Option Window) : (s.setPlace n w).pending = s.pending := rfl

/-! ### `State.modWin` -/

@[simp] theorem State.modWin_rst (n : WinNo) (f : Window → Window) : (s.modWin n f).rst = s.rst := rfl
@[simp] theorem State.modWin_straps (n : WinNo) (f : Window → Window) : (s.modWin n f).straps = s.straps := rfl
@[simp] theorem State.modWin_strapPins (n : WinNo) (f : Window → Window) : (s.modWin n f).strapPins = s.strapPins := rfl
@[simp] theorem State.modWin_bus (n : WinNo) (f : Window → Window) : (s.modWin n f).bus = s.bus := rfl
@[simp] theorem State.modWin_tap (n : WinNo) (f : Window → Window) : (s.modWin n f).tap = s.tap := rfl
@[simp] theorem State.modWin_pool (n : WinNo) (f : Window → Window) : (s.modWin n f).pool = s.pool := rfl
@[simp] theorem State.modWin_win0 (n : WinNo) (f : Window → Window) : (s.modWin n f).win0 = s.win0 := rfl
@[simp] theorem State.modWin_arbiter (n : WinNo) (f : Window → Window) : (s.modWin n f).arbiter = s.arbiter := rfl
@[simp] theorem State.modWin_port (n : WinNo) (f : Window → Window) : (s.modWin n f).port = s.port := rfl
@[simp] theorem State.modWin_journal (n : WinNo) (f : Window → Window) : (s.modWin n f).journal = s.journal := rfl
@[simp] theorem State.modWin_groups (n : WinNo) (f : Window → Window) : (s.modWin n f).groups = s.groups := rfl
@[simp] theorem State.modWin_timer (n : WinNo) (f : Window → Window) : (s.modWin n f).timer = s.timer := rfl
@[simp] theorem State.modWin_params (n : WinNo) (f : Window → Window) : (s.modWin n f).params = s.params := rfl
@[simp] theorem State.modWin_link (n : WinNo) (f : Window → Window) : (s.modWin n f).link = s.link := rfl
@[simp] theorem State.modWin_fe (n : WinNo) (f : Window → Window) : (s.modWin n f).fe = s.fe := rfl
@[simp] theorem State.modWin_mbox (n : WinNo) (f : Window → Window) : (s.modWin n f).mbox = s.mbox := rfl
@[simp] theorem State.modWin_status (n : WinNo) (f : Window → Window) : (s.modWin n f).status = s.status := rfl
@[simp] theorem State.modWin_store (n : WinNo) (f : Window → Window) : (s.modWin n f).store = s.store := rfl
@[simp] theorem State.modWin_due (n : WinNo) (f : Window → Window) : (s.modWin n f).due = s.due := rfl
@[simp] theorem State.modWin_freeCount (n : WinNo) (f : Window → Window) : (s.modWin n f).freeCount = s.freeCount := rfl
@[simp] theorem State.modWin_pending (n : WinNo) (f : Window → Window) : (s.modWin n f).pending = s.pending := rfl

/-! ### `State.modAll` -/

@[simp] theorem State.modAll_rst (f : Window → Window) : (s.modAll f).rst = s.rst := rfl
@[simp] theorem State.modAll_straps (f : Window → Window) : (s.modAll f).straps = s.straps := rfl
@[simp] theorem State.modAll_strapPins (f : Window → Window) : (s.modAll f).strapPins = s.strapPins := rfl
@[simp] theorem State.modAll_bus (f : Window → Window) : (s.modAll f).bus = s.bus := rfl
@[simp] theorem State.modAll_tap (f : Window → Window) : (s.modAll f).tap = s.tap := rfl
@[simp] theorem State.modAll_pool (f : Window → Window) : (s.modAll f).pool = s.pool := rfl
@[simp] theorem State.modAll_win0 (f : Window → Window) : (s.modAll f).win0 = s.win0 := rfl
@[simp] theorem State.modAll_arbiter (f : Window → Window) : (s.modAll f).arbiter = s.arbiter := rfl
@[simp] theorem State.modAll_port (f : Window → Window) : (s.modAll f).port = s.port := rfl
@[simp] theorem State.modAll_journal (f : Window → Window) : (s.modAll f).journal = s.journal := rfl
@[simp] theorem State.modAll_groups (f : Window → Window) : (s.modAll f).groups = s.groups := rfl
@[simp] theorem State.modAll_timer (f : Window → Window) : (s.modAll f).timer = s.timer := rfl
@[simp] theorem State.modAll_params (f : Window → Window) : (s.modAll f).params = s.params := rfl
@[simp] theorem State.modAll_link (f : Window → Window) : (s.modAll f).link = s.link := rfl
@[simp] theorem State.modAll_fe (f : Window → Window) : (s.modAll f).fe = s.fe := rfl
@[simp] theorem State.modAll_mbox (f : Window → Window) : (s.modAll f).mbox = s.mbox := rfl
@[simp] theorem State.modAll_status (f : Window → Window) : (s.modAll f).status = s.status := rfl
@[simp] theorem State.modAll_store (f : Window → Window) : (s.modAll f).store = s.store := rfl
@[simp] theorem State.modAll_due (f : Window → Window) : (s.modAll f).due = s.due := rfl
@[simp] theorem State.modAll_freeCount (f : Window → Window) : (s.modAll f).freeCount = s.freeCount := rfl
@[simp] theorem State.modAll_pending (f : Window → Window) : (s.modAll f).pending = s.pending := rfl

/-! ### `State.setImageByte` -/

@[simp] theorem State.setImageByte_rst (m : List Nat) (o : Nat) (b : Byte) : (s.setImageByte m o b).rst = s.rst := rfl
@[simp] theorem State.setImageByte_straps (m : List Nat) (o : Nat) (b : Byte) : (s.setImageByte m o b).straps = s.straps := rfl
@[simp] theorem State.setImageByte_strapPins (m : List Nat) (o : Nat) (b : Byte) : (s.setImageByte m o b).strapPins = s.strapPins := rfl
@[simp] theorem State.setImageByte_bus (m : List Nat) (o : Nat) (b : Byte) : (s.setImageByte m o b).bus = s.bus := rfl
@[simp] theorem State.setImageByte_tap (m : List Nat) (o : Nat) (b : Byte) : (s.setImageByte m o b).tap = s.tap := rfl
@[simp] theorem State.setImageByte_places (m : List Nat) (o : Nat) (b : Byte) : (s.setImageByte m o b).places = s.places := rfl
@[simp] theorem State.setImageByte_win0 (m : List Nat) (o : Nat) (b : Byte) : (s.setImageByte m o b).win0 = s.win0 := rfl
@[simp] theorem State.setImageByte_arbiter (m : List Nat) (o : Nat) (b : Byte) : (s.setImageByte m o b).arbiter = s.arbiter := rfl
@[simp] theorem State.setImageByte_port (m : List Nat) (o : Nat) (b : Byte) : (s.setImageByte m o b).port = s.port := rfl
@[simp] theorem State.setImageByte_journal (m : List Nat) (o : Nat) (b : Byte) : (s.setImageByte m o b).journal = s.journal := rfl
@[simp] theorem State.setImageByte_groups (m : List Nat) (o : Nat) (b : Byte) : (s.setImageByte m o b).groups = s.groups := rfl
@[simp] theorem State.setImageByte_timer (m : List Nat) (o : Nat) (b : Byte) : (s.setImageByte m o b).timer = s.timer := rfl
@[simp] theorem State.setImageByte_params (m : List Nat) (o : Nat) (b : Byte) : (s.setImageByte m o b).params = s.params := rfl
@[simp] theorem State.setImageByte_link (m : List Nat) (o : Nat) (b : Byte) : (s.setImageByte m o b).link = s.link := rfl
@[simp] theorem State.setImageByte_fe (m : List Nat) (o : Nat) (b : Byte) : (s.setImageByte m o b).fe = s.fe := rfl
@[simp] theorem State.setImageByte_mbox (m : List Nat) (o : Nat) (b : Byte) : (s.setImageByte m o b).mbox = s.mbox := rfl
@[simp] theorem State.setImageByte_status (m : List Nat) (o : Nat) (b : Byte) : (s.setImageByte m o b).status = s.status := rfl
@[simp] theorem State.setImageByte_store (m : List Nat) (o : Nat) (b : Byte) : (s.setImageByte m o b).store = s.store := rfl
@[simp] theorem State.setImageByte_due (m : List Nat) (o : Nat) (b : Byte) : (s.setImageByte m o b).due = s.due := rfl
@[simp] theorem State.setImageByte_freeCount (m : List Nat) (o : Nat) (b : Byte) : (s.setImageByte m o b).freeCount = s.freeCount := rfl
@[simp] theorem State.setImageByte_pending (m : List Nat) (o : Nat) (b : Byte) : (s.setImageByte m o b).pending = s.pending := rfl

/-! ### `State.setGranule` -/

@[simp] theorem State.setGranule_rst (m : List Nat) (g : Nat) (b : List Byte) : (s.setGranule m g b).rst = s.rst := rfl
@[simp] theorem State.setGranule_straps (m : List Nat) (g : Nat) (b : List Byte) : (s.setGranule m g b).straps = s.straps := rfl
@[simp] theorem State.setGranule_strapPins (m : List Nat) (g : Nat) (b : List Byte) : (s.setGranule m g b).strapPins = s.strapPins := rfl
@[simp] theorem State.setGranule_bus (m : List Nat) (g : Nat) (b : List Byte) : (s.setGranule m g b).bus = s.bus := rfl
@[simp] theorem State.setGranule_tap (m : List Nat) (g : Nat) (b : List Byte) : (s.setGranule m g b).tap = s.tap := rfl
@[simp] theorem State.setGranule_places (m : List Nat) (g : Nat) (b : List Byte) : (s.setGranule m g b).places = s.places := rfl
@[simp] theorem State.setGranule_win0 (m : List Nat) (g : Nat) (b : List Byte) : (s.setGranule m g b).win0 = s.win0 := rfl
@[simp] theorem State.setGranule_arbiter (m : List Nat) (g : Nat) (b : List Byte) : (s.setGranule m g b).arbiter = s.arbiter := rfl
@[simp] theorem State.setGranule_port (m : List Nat) (g : Nat) (b : List Byte) : (s.setGranule m g b).port = s.port := rfl
@[simp] theorem State.setGranule_journal (m : List Nat) (g : Nat) (b : List Byte) : (s.setGranule m g b).journal = s.journal := rfl
@[simp] theorem State.setGranule_groups (m : List Nat) (g : Nat) (b : List Byte) : (s.setGranule m g b).groups = s.groups := rfl
@[simp] theorem State.setGranule_timer (m : List Nat) (g : Nat) (b : List Byte) : (s.setGranule m g b).timer = s.timer := rfl
@[simp] theorem State.setGranule_params (m : List Nat) (g : Nat) (b : List Byte) : (s.setGranule m g b).params = s.params := rfl
@[simp] theorem State.setGranule_link (m : List Nat) (g : Nat) (b : List Byte) : (s.setGranule m g b).link = s.link := rfl
@[simp] theorem State.setGranule_fe (m : List Nat) (g : Nat) (b : List Byte) : (s.setGranule m g b).fe = s.fe := rfl
@[simp] theorem State.setGranule_mbox (m : List Nat) (g : Nat) (b : List Byte) : (s.setGranule m g b).mbox = s.mbox := rfl
@[simp] theorem State.setGranule_status (m : List Nat) (g : Nat) (b : List Byte) : (s.setGranule m g b).status = s.status := rfl
@[simp] theorem State.setGranule_store (m : List Nat) (g : Nat) (b : List Byte) : (s.setGranule m g b).store = s.store := rfl
@[simp] theorem State.setGranule_due (m : List Nat) (g : Nat) (b : List Byte) : (s.setGranule m g b).due = s.due := rfl
@[simp] theorem State.setGranule_freeCount (m : List Nat) (g : Nat) (b : List Byte) : (s.setGranule m g b).freeCount = s.freeCount := rfl
@[simp] theorem State.setGranule_pending (m : List Nat) (g : Nat) (b : List Byte) : (s.setGranule m g b).pending = s.pending := rfl

/-! ### `State.setEntries` -/

@[simp] theorem State.setEntries_rst (l : List Entry) : (s.setEntries l).rst = s.rst := rfl
@[simp] theorem State.setEntries_straps (l : List Entry) : (s.setEntries l).straps = s.straps := rfl
@[simp] theorem State.setEntries_strapPins (l : List Entry) : (s.setEntries l).strapPins = s.strapPins := rfl
@[simp] theorem State.setEntries_bus (l : List Entry) : (s.setEntries l).bus = s.bus := rfl
@[simp] theorem State.setEntries_tap (l : List Entry) : (s.setEntries l).tap = s.tap := rfl
@[simp] theorem State.setEntries_places (l : List Entry) : (s.setEntries l).places = s.places := rfl
@[simp] theorem State.setEntries_pool (l : List Entry) : (s.setEntries l).pool = s.pool := rfl
@[simp] theorem State.setEntries_win0 (l : List Entry) : (s.setEntries l).win0 = s.win0 := rfl
@[simp] theorem State.setEntries_arbiter (l : List Entry) : (s.setEntries l).arbiter = s.arbiter := rfl
@[simp] theorem State.setEntries_port (l : List Entry) : (s.setEntries l).port = s.port := rfl
@[simp] theorem State.setEntries_groups (l : List Entry) : (s.setEntries l).groups = s.groups := rfl
@[simp] theorem State.setEntries_timer (l : List Entry) : (s.setEntries l).timer = s.timer := rfl
@[simp] theorem State.setEntries_params (l : List Entry) : (s.setEntries l).params = s.params := rfl
@[simp] theorem State.setEntries_link (l : List Entry) : (s.setEntries l).link = s.link := rfl
@[simp] theorem State.setEntries_fe (l : List Entry) : (s.setEntries l).fe = s.fe := rfl
@[simp] theorem State.setEntries_mbox (l : List Entry) : (s.setEntries l).mbox = s.mbox := rfl
@[simp] theorem State.setEntries_status (l : List Entry) : (s.setEntries l).status = s.status := rfl
@[simp] theorem State.setEntries_store (l : List Entry) : (s.setEntries l).store = s.store := rfl
@[simp] theorem State.setEntries_due (l : List Entry) : (s.setEntries l).due = s.due := rfl
@[simp] theorem State.setEntries_freeCount (l : List Entry) : (s.setEntries l).freeCount = s.freeCount := rfl
@[simp] theorem State.setEntries_pending (l : List Entry) : (s.setEntries l).pending = s.pending := rfl
@[simp] theorem State.setEntries_entries (l : List Entry) : (s.setEntries l).journal.entries = l := rfl
@[simp] theorem State.setEntries_hold (l : List Entry) : (s.setEntries l).journal.hold = s.journal.hold := rfl

/-! ### `State.setHold` -/

@[simp] theorem State.setHold_rst (b : Bool) : (s.setHold b).rst = s.rst := rfl
@[simp] theorem State.setHold_straps (b : Bool) : (s.setHold b).straps = s.straps := rfl
@[simp] theorem State.setHold_strapPins (b : Bool) : (s.setHold b).strapPins = s.strapPins := rfl
@[simp] theorem State.setHold_bus (b : Bool) : (s.setHold b).bus = s.bus := rfl
@[simp] theorem State.setHold_tap (b : Bool) : (s.setHold b).tap = s.tap := rfl
@[simp] theorem State.setHold_places (b : Bool) : (s.setHold b).places = s.places := rfl
@[simp] theorem State.setHold_pool (b : Bool) : (s.setHold b).pool = s.pool := rfl
@[simp] theorem State.setHold_win0 (b : Bool) : (s.setHold b).win0 = s.win0 := rfl
@[simp] theorem State.setHold_arbiter (b : Bool) : (s.setHold b).arbiter = s.arbiter := rfl
@[simp] theorem State.setHold_port (b : Bool) : (s.setHold b).port = s.port := rfl
@[simp] theorem State.setHold_groups (b : Bool) : (s.setHold b).groups = s.groups := rfl
@[simp] theorem State.setHold_timer (b : Bool) : (s.setHold b).timer = s.timer := rfl
@[simp] theorem State.setHold_params (b : Bool) : (s.setHold b).params = s.params := rfl
@[simp] theorem State.setHold_link (b : Bool) : (s.setHold b).link = s.link := rfl
@[simp] theorem State.setHold_fe (b : Bool) : (s.setHold b).fe = s.fe := rfl
@[simp] theorem State.setHold_mbox (b : Bool) : (s.setHold b).mbox = s.mbox := rfl
@[simp] theorem State.setHold_status (b : Bool) : (s.setHold b).status = s.status := rfl
@[simp] theorem State.setHold_store (b : Bool) : (s.setHold b).store = s.store := rfl
@[simp] theorem State.setHold_due (b : Bool) : (s.setHold b).due = s.due := rfl
@[simp] theorem State.setHold_freeCount (b : Bool) : (s.setHold b).freeCount = s.freeCount := rfl
@[simp] theorem State.setHold_pending (b : Bool) : (s.setHold b).pending = s.pending := rfl
@[simp] theorem State.setHold_hold (b : Bool) : (s.setHold b).journal.hold = b := rfl
@[simp] theorem State.setHold_entries (b : Bool) : (s.setHold b).journal.entries = s.journal.entries := rfl

/-! ### `State.setGroup` -/

@[simp] theorem State.setGroup_rst (g : GroupNo) (x : Group) : (s.setGroup g x).rst = s.rst := rfl
@[simp] theorem State.setGroup_straps (g : GroupNo) (x : Group) : (s.setGroup g x).straps = s.straps := rfl
@[simp] theorem State.setGroup_strapPins (g : GroupNo) (x : Group) : (s.setGroup g x).strapPins = s.strapPins := rfl
@[simp] theorem State.setGroup_bus (g : GroupNo) (x : Group) : (s.setGroup g x).bus = s.bus := rfl
@[simp] theorem State.setGroup_tap (g : GroupNo) (x : Group) : (s.setGroup g x).tap = s.tap := rfl
@[simp] theorem State.setGroup_places (g : GroupNo) (x : Group) : (s.setGroup g x).places = s.places := rfl
@[simp] theorem State.setGroup_pool (g : GroupNo) (x : Group) : (s.setGroup g x).pool = s.pool := rfl
@[simp] theorem State.setGroup_win0 (g : GroupNo) (x : Group) : (s.setGroup g x).win0 = s.win0 := rfl
@[simp] theorem State.setGroup_arbiter (g : GroupNo) (x : Group) : (s.setGroup g x).arbiter = s.arbiter := rfl
@[simp] theorem State.setGroup_port (g : GroupNo) (x : Group) : (s.setGroup g x).port = s.port := rfl
@[simp] theorem State.setGroup_journal (g : GroupNo) (x : Group) : (s.setGroup g x).journal = s.journal := rfl
@[simp] theorem State.setGroup_timer (g : GroupNo) (x : Group) : (s.setGroup g x).timer = s.timer := rfl
@[simp] theorem State.setGroup_params (g : GroupNo) (x : Group) : (s.setGroup g x).params = s.params := rfl
@[simp] theorem State.setGroup_link (g : GroupNo) (x : Group) : (s.setGroup g x).link = s.link := rfl
@[simp] theorem State.setGroup_fe (g : GroupNo) (x : Group) : (s.setGroup g x).fe = s.fe := rfl
@[simp] theorem State.setGroup_mbox (g : GroupNo) (x : Group) : (s.setGroup g x).mbox = s.mbox := rfl
@[simp] theorem State.setGroup_status (g : GroupNo) (x : Group) : (s.setGroup g x).status = s.status := rfl
@[simp] theorem State.setGroup_store (g : GroupNo) (x : Group) : (s.setGroup g x).store = s.store := rfl
@[simp] theorem State.setGroup_due (g : GroupNo) (x : Group) : (s.setGroup g x).due = s.due := rfl
@[simp] theorem State.setGroup_freeCount (g : GroupNo) (x : Group) : (s.setGroup g x).freeCount = s.freeCount := rfl
@[simp] theorem State.setGroup_pending (g : GroupNo) (x : Group) : (s.setGroup g x).pending = s.pending := rfl

/-! ### `State.setTable` -/

@[simp] theorem State.setTable_rst (t : List Neighbour) : (s.setTable t).rst = s.rst := rfl
@[simp] theorem State.setTable_straps (t : List Neighbour) : (s.setTable t).straps = s.straps := rfl
@[simp] theorem State.setTable_strapPins (t : List Neighbour) : (s.setTable t).strapPins = s.strapPins := rfl
@[simp] theorem State.setTable_bus (t : List Neighbour) : (s.setTable t).bus = s.bus := rfl
@[simp] theorem State.setTable_tap (t : List Neighbour) : (s.setTable t).tap = s.tap := rfl
@[simp] theorem State.setTable_places (t : List Neighbour) : (s.setTable t).places = s.places := rfl
@[simp] theorem State.setTable_pool (t : List Neighbour) : (s.setTable t).pool = s.pool := rfl
@[simp] theorem State.setTable_win0 (t : List Neighbour) : (s.setTable t).win0 = s.win0 := rfl
@[simp] theorem State.setTable_arbiter (t : List Neighbour) : (s.setTable t).arbiter = s.arbiter := rfl
@[simp] theorem State.setTable_port (t : List Neighbour) : (s.setTable t).port = s.port := rfl
@[simp] theorem State.setTable_journal (t : List Neighbour) : (s.setTable t).journal = s.journal := rfl
@[simp] theorem State.setTable_groups (t : List Neighbour) : (s.setTable t).groups = s.groups := rfl
@[simp] theorem State.setTable_timer (t : List Neighbour) : (s.setTable t).timer = s.timer := rfl
@[simp] theorem State.setTable_params (t : List Neighbour) : (s.setTable t).params = s.params := rfl
@[simp] theorem State.setTable_fe (t : List Neighbour) : (s.setTable t).fe = s.fe := rfl
@[simp] theorem State.setTable_mbox (t : List Neighbour) : (s.setTable t).mbox = s.mbox := rfl
@[simp] theorem State.setTable_status (t : List Neighbour) : (s.setTable t).status = s.status := rfl
@[simp] theorem State.setTable_store (t : List Neighbour) : (s.setTable t).store = s.store := rfl
@[simp] theorem State.setTable_due (t : List Neighbour) : (s.setTable t).due = s.due := rfl
@[simp] theorem State.setTable_freeCount (t : List Neighbour) : (s.setTable t).freeCount = s.freeCount := rfl
@[simp] theorem State.setTable_pending (t : List Neighbour) : (s.setTable t).pending = s.pending := rfl
@[simp] theorem State.setTable_table (t : List Neighbour) : (s.setTable t).link.table = t := rfl
@[simp] theorem State.setTable_state (t : List Neighbour) : (s.setTable t).link.state = s.link.state := rfl

/-! ### `State.setJoin` -/

@[simp] theorem State.setJoin_rst (j : JoinRequest) : (s.setJoin j).rst = s.rst := rfl
@[simp] theorem State.setJoin_straps (j : JoinRequest) : (s.setJoin j).straps = s.straps := rfl
@[simp] theorem State.setJoin_strapPins (j : JoinRequest) : (s.setJoin j).strapPins = s.strapPins := rfl
@[simp] theorem State.setJoin_bus (j : JoinRequest) : (s.setJoin j).bus = s.bus := rfl
@[simp] theorem State.setJoin_tap (j : JoinRequest) : (s.setJoin j).tap = s.tap := rfl
@[simp] theorem State.setJoin_places (j : JoinRequest) : (s.setJoin j).places = s.places := rfl
@[simp] theorem State.setJoin_pool (j : JoinRequest) : (s.setJoin j).pool = s.pool := rfl
@[simp] theorem State.setJoin_win0 (j : JoinRequest) : (s.setJoin j).win0 = s.win0 := rfl
@[simp] theorem State.setJoin_arbiter (j : JoinRequest) : (s.setJoin j).arbiter = s.arbiter := rfl
@[simp] theorem State.setJoin_port (j : JoinRequest) : (s.setJoin j).port = s.port := rfl
@[simp] theorem State.setJoin_journal (j : JoinRequest) : (s.setJoin j).journal = s.journal := rfl
@[simp] theorem State.setJoin_groups (j : JoinRequest) : (s.setJoin j).groups = s.groups := rfl
@[simp] theorem State.setJoin_timer (j : JoinRequest) : (s.setJoin j).timer = s.timer := rfl
@[simp] theorem State.setJoin_params (j : JoinRequest) : (s.setJoin j).params = s.params := rfl
@[simp] theorem State.setJoin_fe (j : JoinRequest) : (s.setJoin j).fe = s.fe := rfl
@[simp] theorem State.setJoin_mbox (j : JoinRequest) : (s.setJoin j).mbox = s.mbox := rfl
@[simp] theorem State.setJoin_status (j : JoinRequest) : (s.setJoin j).status = s.status := rfl
@[simp] theorem State.setJoin_store (j : JoinRequest) : (s.setJoin j).store = s.store := rfl
@[simp] theorem State.setJoin_due (j : JoinRequest) : (s.setJoin j).due = s.due := rfl
@[simp] theorem State.setJoin_freeCount (j : JoinRequest) : (s.setJoin j).freeCount = s.freeCount := rfl
@[simp] theorem State.setJoin_pending (j : JoinRequest) : (s.setJoin j).pending = s.pending := rfl
@[simp] theorem State.setJoin_table (j : JoinRequest) : (s.setJoin j).link.table = s.link.table := rfl
@[simp] theorem State.setJoin_join (j : JoinRequest) : (s.setJoin j).link.join = j := rfl
@[simp] theorem State.setJoin_state (j : JoinRequest) : (s.setJoin j).link.state = s.link.state := rfl

/-! ### `State.setLink` -/

@[simp] theorem State.setLink_rst (x : LinkState) : (s.setLink x).rst = s.rst := rfl
@[simp] theorem State.setLink_straps (x : LinkState) : (s.setLink x).straps = s.straps := rfl
@[simp] theorem State.setLink_strapPins (x : LinkState) : (s.setLink x).strapPins = s.strapPins := rfl
@[simp] theorem State.setLink_bus (x : LinkState) : (s.setLink x).bus = s.bus := rfl
@[simp] theorem State.setLink_tap (x : LinkState) : (s.setLink x).tap = s.tap := rfl
@[simp] theorem State.setLink_places (x : LinkState) : (s.setLink x).places = s.places := rfl
@[simp] theorem State.setLink_pool (x : LinkState) : (s.setLink x).pool = s.pool := rfl
@[simp] theorem State.setLink_win0 (x : LinkState) : (s.setLink x).win0 = s.win0 := rfl
@[simp] theorem State.setLink_arbiter (x : LinkState) : (s.setLink x).arbiter = s.arbiter := rfl
@[simp] theorem State.setLink_port (x : LinkState) : (s.setLink x).port = s.port := rfl
@[simp] theorem State.setLink_journal (x : LinkState) : (s.setLink x).journal = s.journal := rfl
@[simp] theorem State.setLink_groups (x : LinkState) : (s.setLink x).groups = s.groups := rfl
@[simp] theorem State.setLink_timer (x : LinkState) : (s.setLink x).timer = s.timer := rfl
@[simp] theorem State.setLink_params (x : LinkState) : (s.setLink x).params = s.params := rfl
@[simp] theorem State.setLink_fe (x : LinkState) : (s.setLink x).fe = s.fe := rfl
@[simp] theorem State.setLink_mbox (x : LinkState) : (s.setLink x).mbox = s.mbox := rfl
@[simp] theorem State.setLink_status (x : LinkState) : (s.setLink x).status = s.status := rfl
@[simp] theorem State.setLink_store (x : LinkState) : (s.setLink x).store = s.store := rfl
@[simp] theorem State.setLink_due (x : LinkState) : (s.setLink x).due = s.due := rfl
@[simp] theorem State.setLink_freeCount (x : LinkState) : (s.setLink x).freeCount = s.freeCount := rfl
@[simp] theorem State.setLink_pending (x : LinkState) : (s.setLink x).pending = s.pending := rfl
@[simp] theorem State.setLink_table (x : LinkState) : (s.setLink x).link.table = s.link.table := rfl
@[simp] theorem State.setLink_state (x : LinkState) : (s.setLink x).link.state = x := rfl

/-! ### `State.setTimer` -/

@[simp] theorem State.setTimer_rst (t : Timer) : (s.setTimer t).rst = s.rst := rfl
@[simp] theorem State.setTimer_straps (t : Timer) : (s.setTimer t).straps = s.straps := rfl
@[simp] theorem State.setTimer_strapPins (t : Timer) : (s.setTimer t).strapPins = s.strapPins := rfl
@[simp] theorem State.setTimer_bus (t : Timer) : (s.setTimer t).bus = s.bus := rfl
@[simp] theorem State.setTimer_tap (t : Timer) : (s.setTimer t).tap = s.tap := rfl
@[simp] theorem State.setTimer_places (t : Timer) : (s.setTimer t).places = s.places := rfl
@[simp] theorem State.setTimer_pool (t : Timer) : (s.setTimer t).pool = s.pool := rfl
@[simp] theorem State.setTimer_win0 (t : Timer) : (s.setTimer t).win0 = s.win0 := rfl
@[simp] theorem State.setTimer_arbiter (t : Timer) : (s.setTimer t).arbiter = s.arbiter := rfl
@[simp] theorem State.setTimer_port (t : Timer) : (s.setTimer t).port = s.port := rfl
@[simp] theorem State.setTimer_journal (t : Timer) : (s.setTimer t).journal = s.journal := rfl
@[simp] theorem State.setTimer_groups (t : Timer) : (s.setTimer t).groups = s.groups := rfl
@[simp] theorem State.setTimer_params (t : Timer) : (s.setTimer t).params = s.params := rfl
@[simp] theorem State.setTimer_link (t : Timer) : (s.setTimer t).link = s.link := rfl
@[simp] theorem State.setTimer_fe (t : Timer) : (s.setTimer t).fe = s.fe := rfl
@[simp] theorem State.setTimer_mbox (t : Timer) : (s.setTimer t).mbox = s.mbox := rfl
@[simp] theorem State.setTimer_status (t : Timer) : (s.setTimer t).status = s.status := rfl
@[simp] theorem State.setTimer_store (t : Timer) : (s.setTimer t).store = s.store := rfl
@[simp] theorem State.setTimer_due (t : Timer) : (s.setTimer t).due = s.due := rfl
@[simp] theorem State.setTimer_freeCount (t : Timer) : (s.setTimer t).freeCount = s.freeCount := rfl
@[simp] theorem State.setTimer_pending (t : Timer) : (s.setTimer t).pending = s.pending := rfl
@[simp] theorem State.setTimer_timer (t : Timer) : (s.setTimer t).timer = t := rfl

/-! ### `State.setMbox` -/

@[simp] theorem State.setMbox_rst (m : Mailbox) : (s.setMbox m).rst = s.rst := rfl
@[simp] theorem State.setMbox_straps (m : Mailbox) : (s.setMbox m).straps = s.straps := rfl
@[simp] theorem State.setMbox_strapPins (m : Mailbox) : (s.setMbox m).strapPins = s.strapPins := rfl
@[simp] theorem State.setMbox_bus (m : Mailbox) : (s.setMbox m).bus = s.bus := rfl
@[simp] theorem State.setMbox_tap (m : Mailbox) : (s.setMbox m).tap = s.tap := rfl
@[simp] theorem State.setMbox_places (m : Mailbox) : (s.setMbox m).places = s.places := rfl
@[simp] theorem State.setMbox_pool (m : Mailbox) : (s.setMbox m).pool = s.pool := rfl
@[simp] theorem State.setMbox_win0 (m : Mailbox) : (s.setMbox m).win0 = s.win0 := rfl
@[simp] theorem State.setMbox_arbiter (m : Mailbox) : (s.setMbox m).arbiter = s.arbiter := rfl
@[simp] theorem State.setMbox_port (m : Mailbox) : (s.setMbox m).port = s.port := rfl
@[simp] theorem State.setMbox_journal (m : Mailbox) : (s.setMbox m).journal = s.journal := rfl
@[simp] theorem State.setMbox_groups (m : Mailbox) : (s.setMbox m).groups = s.groups := rfl
@[simp] theorem State.setMbox_timer (m : Mailbox) : (s.setMbox m).timer = s.timer := rfl
@[simp] theorem State.setMbox_params (m : Mailbox) : (s.setMbox m).params = s.params := rfl
@[simp] theorem State.setMbox_link (m : Mailbox) : (s.setMbox m).link = s.link := rfl
@[simp] theorem State.setMbox_fe (m : Mailbox) : (s.setMbox m).fe = s.fe := rfl
@[simp] theorem State.setMbox_status (m : Mailbox) : (s.setMbox m).status = s.status := rfl
@[simp] theorem State.setMbox_store (m : Mailbox) : (s.setMbox m).store = s.store := rfl
@[simp] theorem State.setMbox_due (m : Mailbox) : (s.setMbox m).due = s.due := rfl
@[simp] theorem State.setMbox_freeCount (m : Mailbox) : (s.setMbox m).freeCount = s.freeCount := rfl
@[simp] theorem State.setMbox_pending (m : Mailbox) : (s.setMbox m).pending = s.pending := rfl
@[simp] theorem State.setMbox_mbox (m : Mailbox) : (s.setMbox m).mbox = m := rfl

/-! ### `State.await` -/

@[simp] theorem State.await_rst (w : Work) : (s.await w).rst = s.rst := rfl
@[simp] theorem State.await_straps (w : Work) : (s.await w).straps = s.straps := rfl
@[simp] theorem State.await_strapPins (w : Work) : (s.await w).strapPins = s.strapPins := rfl
@[simp] theorem State.await_bus (w : Work) : (s.await w).bus = s.bus := rfl
@[simp] theorem State.await_tap (w : Work) : (s.await w).tap = s.tap := rfl
@[simp] theorem State.await_places (w : Work) : (s.await w).places = s.places := rfl
@[simp] theorem State.await_pool (w : Work) : (s.await w).pool = s.pool := rfl
@[simp] theorem State.await_win0 (w : Work) : (s.await w).win0 = s.win0 := rfl
@[simp] theorem State.await_arbiter (w : Work) : (s.await w).arbiter = s.arbiter := rfl
@[simp] theorem State.await_port (w : Work) : (s.await w).port = s.port := rfl
@[simp] theorem State.await_journal (w : Work) : (s.await w).journal = s.journal := rfl
@[simp] theorem State.await_groups (w : Work) : (s.await w).groups = s.groups := rfl
@[simp] theorem State.await_timer (w : Work) : (s.await w).timer = s.timer := rfl
@[simp] theorem State.await_params (w : Work) : (s.await w).params = s.params := rfl
@[simp] theorem State.await_link (w : Work) : (s.await w).link = s.link := rfl
@[simp] theorem State.await_fe (w : Work) : (s.await w).fe = s.fe := rfl
@[simp] theorem State.await_status (w : Work) : (s.await w).status = s.status := rfl
@[simp] theorem State.await_store (w : Work) : (s.await w).store = s.store := rfl
@[simp] theorem State.await_due (w : Work) : (s.await w).due = s.due := rfl
@[simp] theorem State.await_freeCount (w : Work) : (s.await w).freeCount = s.freeCount := rfl
@[simp] theorem State.await_pending (w : Work) : (s.await w).pending = s.pending := rfl
@[simp] theorem State.await_work (w : Work) : (s.await w).mbox.work = w := rfl
@[simp] theorem State.await_state (w : Work) : (s.await w).mbox.state = s.mbox.state := rfl

/-! ### `State.completeAs` -/

@[simp] theorem State.completeAs_rst (e : Word) (r : ResultCode) (d : List Byte) : (s.completeAs e r d).rst = s.rst := rfl
@[simp] theorem State.completeAs_straps (e : Word) (r : ResultCode) (d : List Byte) : (s.completeAs e r d).straps = s.straps := rfl
@[simp] theorem State.completeAs_strapPins (e : Word) (r : ResultCode) (d : List Byte) : (s.completeAs e r d).strapPins = s.strapPins := rfl
@[simp] theorem State.completeAs_bus (e : Word) (r : ResultCode) (d : List Byte) : (s.completeAs e r d).bus = s.bus := rfl
@[simp] theorem State.completeAs_tap (e : Word) (r : ResultCode) (d : List Byte) : (s.completeAs e r d).tap = s.tap := rfl
@[simp] theorem State.completeAs_places (e : Word) (r : ResultCode) (d : List Byte) : (s.completeAs e r d).places = s.places := rfl
@[simp] theorem State.completeAs_pool (e : Word) (r : ResultCode) (d : List Byte) : (s.completeAs e r d).pool = s.pool := rfl
@[simp] theorem State.completeAs_win0 (e : Word) (r : ResultCode) (d : List Byte) : (s.completeAs e r d).win0 = s.win0 := rfl
@[simp] theorem State.completeAs_arbiter (e : Word) (r : ResultCode) (d : List Byte) : (s.completeAs e r d).arbiter = s.arbiter := rfl
@[simp] theorem State.completeAs_port (e : Word) (r : ResultCode) (d : List Byte) : (s.completeAs e r d).port = s.port := rfl
@[simp] theorem State.completeAs_journal (e : Word) (r : ResultCode) (d : List Byte) : (s.completeAs e r d).journal = s.journal := rfl
@[simp] theorem State.completeAs_groups (e : Word) (r : ResultCode) (d : List Byte) : (s.completeAs e r d).groups = s.groups := rfl
@[simp] theorem State.completeAs_timer (e : Word) (r : ResultCode) (d : List Byte) : (s.completeAs e r d).timer = s.timer := rfl
@[simp] theorem State.completeAs_params (e : Word) (r : ResultCode) (d : List Byte) : (s.completeAs e r d).params = s.params := rfl
@[simp] theorem State.completeAs_link (e : Word) (r : ResultCode) (d : List Byte) : (s.completeAs e r d).link = s.link := rfl
@[simp] theorem State.completeAs_fe (e : Word) (r : ResultCode) (d : List Byte) : (s.completeAs e r d).fe = s.fe := rfl
@[simp] theorem State.completeAs_store (e : Word) (r : ResultCode) (d : List Byte) : (s.completeAs e r d).store = s.store := rfl
@[simp] theorem State.completeAs_due (e : Word) (r : ResultCode) (d : List Byte) : (s.completeAs e r d).due = s.due := rfl
@[simp] theorem State.completeAs_freeCount (e : Word) (r : ResultCode) (d : List Byte) : (s.completeAs e r d).freeCount = s.freeCount := rfl
@[simp] theorem State.completeAs_pending (e : Word) (r : ResultCode) (d : List Byte) : (s.completeAs e r d).pending = s.pending := rfl

/-! ### `State.complete` -/

@[simp] theorem State.complete_rst (r : ResultCode) (d : List Byte) : (s.complete r d).rst = s.rst := rfl
@[simp] theorem State.complete_straps (r : ResultCode) (d : List Byte) : (s.complete r d).straps = s.straps := rfl
@[simp] theorem State.complete_strapPins (r : ResultCode) (d : List Byte) : (s.complete r d).strapPins = s.strapPins := rfl
@[simp] theorem State.complete_bus (r : ResultCode) (d : List Byte) : (s.complete r d).bus = s.bus := rfl
@[simp] theorem State.complete_tap (r : ResultCode) (d : List Byte) : (s.complete r d).tap = s.tap := rfl
@[simp] theorem State.complete_places (r : ResultCode) (d : List Byte) : (s.complete r d).places = s.places := rfl
@[simp] theorem State.complete_pool (r : ResultCode) (d : List Byte) : (s.complete r d).pool = s.pool := rfl
@[simp] theorem State.complete_win0 (r : ResultCode) (d : List Byte) : (s.complete r d).win0 = s.win0 := rfl
@[simp] theorem State.complete_arbiter (r : ResultCode) (d : List Byte) : (s.complete r d).arbiter = s.arbiter := rfl
@[simp] theorem State.complete_port (r : ResultCode) (d : List Byte) : (s.complete r d).port = s.port := rfl
@[simp] theorem State.complete_journal (r : ResultCode) (d : List Byte) : (s.complete r d).journal = s.journal := rfl
@[simp] theorem State.complete_groups (r : ResultCode) (d : List Byte) : (s.complete r d).groups = s.groups := rfl
@[simp] theorem State.complete_timer (r : ResultCode) (d : List Byte) : (s.complete r d).timer = s.timer := rfl
@[simp] theorem State.complete_params (r : ResultCode) (d : List Byte) : (s.complete r d).params = s.params := rfl
@[simp] theorem State.complete_link (r : ResultCode) (d : List Byte) : (s.complete r d).link = s.link := rfl
@[simp] theorem State.complete_fe (r : ResultCode) (d : List Byte) : (s.complete r d).fe = s.fe := rfl
@[simp] theorem State.complete_store (r : ResultCode) (d : List Byte) : (s.complete r d).store = s.store := rfl
@[simp] theorem State.complete_due (r : ResultCode) (d : List Byte) : (s.complete r d).due = s.due := rfl
@[simp] theorem State.complete_freeCount (r : ResultCode) (d : List Byte) : (s.complete r d).freeCount = s.freeCount := rfl
@[simp] theorem State.complete_pending (r : ResultCode) (d : List Byte) : (s.complete r d).pending = s.pending := rfl
@[simp] theorem State.complete_state (r : ResultCode) (d : List Byte) : (s.complete r d).mbox.state = r.endState := rfl
@[simp] theorem State.complete_work (r : ResultCode) (d : List Byte) : (s.complete r d).mbox.work = .none := rfl
@[simp] theorem State.complete_data (r : ResultCode) (d : List Byte) : (s.complete r d).mbox.response.data = d := rfl
@[simp] theorem State.complete_result (r : ResultCode) (d : List Byte) : (s.complete r d).mbox.response.result = r := rfl
@[simp] theorem State.complete_echo (r : ResultCode) (d : List Byte) : (s.complete r d).mbox.response.echo = s.mbox.code := rfl
@[simp] theorem State.complete_counters (r : ResultCode) (d : List Byte) : (s.complete r d).status.counters = s.status.counters := rfl

/-! ### `State.setBus` -/

@[simp] theorem State.setBus_rst (b : BusPins) : (s.setBus b).rst = s.rst := rfl
@[simp] theorem State.setBus_straps (b : BusPins) : (s.setBus b).straps = s.straps := rfl
@[simp] theorem State.setBus_strapPins (b : BusPins) : (s.setBus b).strapPins = s.strapPins := rfl
@[simp] theorem State.setBus_tap (b : BusPins) : (s.setBus b).tap = s.tap := rfl
@[simp] theorem State.setBus_places (b : BusPins) : (s.setBus b).places = s.places := rfl
@[simp] theorem State.setBus_pool (b : BusPins) : (s.setBus b).pool = s.pool := rfl
@[simp] theorem State.setBus_win0 (b : BusPins) : (s.setBus b).win0 = s.win0 := rfl
@[simp] theorem State.setBus_arbiter (b : BusPins) : (s.setBus b).arbiter = s.arbiter := rfl
@[simp] theorem State.setBus_port (b : BusPins) : (s.setBus b).port = s.port := rfl
@[simp] theorem State.setBus_journal (b : BusPins) : (s.setBus b).journal = s.journal := rfl
@[simp] theorem State.setBus_groups (b : BusPins) : (s.setBus b).groups = s.groups := rfl
@[simp] theorem State.setBus_timer (b : BusPins) : (s.setBus b).timer = s.timer := rfl
@[simp] theorem State.setBus_params (b : BusPins) : (s.setBus b).params = s.params := rfl
@[simp] theorem State.setBus_link (b : BusPins) : (s.setBus b).link = s.link := rfl
@[simp] theorem State.setBus_fe (b : BusPins) : (s.setBus b).fe = s.fe := rfl
@[simp] theorem State.setBus_mbox (b : BusPins) : (s.setBus b).mbox = s.mbox := rfl
@[simp] theorem State.setBus_status (b : BusPins) : (s.setBus b).status = s.status := rfl
@[simp] theorem State.setBus_store (b : BusPins) : (s.setBus b).store = s.store := rfl
@[simp] theorem State.setBus_due (b : BusPins) : (s.setBus b).due = s.due := rfl
@[simp] theorem State.setBus_freeCount (b : BusPins) : (s.setBus b).freeCount = s.freeCount := rfl
@[simp] theorem State.setBus_pending (b : BusPins) : (s.setBus b).pending = s.pending := rfl
@[simp] theorem State.setBus_bus (b : BusPins) : (s.setBus b).bus = some b := rfl

/-! ### `State.endReception` -/

@[simp] theorem State.endReception_rst : (s.endReception).rst = s.rst := rfl
@[simp] theorem State.endReception_straps : (s.endReception).straps = s.straps := rfl
@[simp] theorem State.endReception_strapPins : (s.endReception).strapPins = s.strapPins := rfl
@[simp] theorem State.endReception_bus : (s.endReception).bus = s.bus := rfl
@[simp] theorem State.endReception_tap : (s.endReception).tap = s.tap := rfl
@[simp] theorem State.endReception_places : (s.endReception).places = s.places := rfl
@[simp] theorem State.endReception_pool : (s.endReception).pool = s.pool := rfl
@[simp] theorem State.endReception_win0 : (s.endReception).win0 = s.win0 := rfl
@[simp] theorem State.endReception_arbiter : (s.endReception).arbiter = s.arbiter := rfl
@[simp] theorem State.endReception_port : (s.endReception).port = s.port := rfl
@[simp] theorem State.endReception_journal : (s.endReception).journal = s.journal := rfl
@[simp] theorem State.endReception_groups : (s.endReception).groups = s.groups := rfl
@[simp] theorem State.endReception_timer : (s.endReception).timer = s.timer := rfl
@[simp] theorem State.endReception_params : (s.endReception).params = s.params := rfl
@[simp] theorem State.endReception_link : (s.endReception).link = s.link := rfl
@[simp] theorem State.endReception_mbox : (s.endReception).mbox = s.mbox := rfl
@[simp] theorem State.endReception_status : (s.endReception).status = s.status := rfl
@[simp] theorem State.endReception_store : (s.endReception).store = s.store := rfl
@[simp] theorem State.endReception_due : (s.endReception).due = s.due := rfl
@[simp] theorem State.endReception_freeCount : (s.endReception).freeCount = s.freeCount := rfl
@[simp] theorem State.endReception_pending : (s.endReception).pending = s.pending := rfl

/-! ### `State.releaseTx` -/

@[simp] theorem State.releaseTx_rst : (s.releaseTx).rst = s.rst := rfl
@[simp] theorem State.releaseTx_straps : (s.releaseTx).straps = s.straps := rfl
@[simp] theorem State.releaseTx_strapPins : (s.releaseTx).strapPins = s.strapPins := rfl
@[simp] theorem State.releaseTx_bus : (s.releaseTx).bus = s.bus := rfl
@[simp] theorem State.releaseTx_tap : (s.releaseTx).tap = s.tap := rfl
@[simp] theorem State.releaseTx_places : (s.releaseTx).places = s.places := rfl
@[simp] theorem State.releaseTx_pool : (s.releaseTx).pool = s.pool := rfl
@[simp] theorem State.releaseTx_win0 : (s.releaseTx).win0 = s.win0 := rfl
@[simp] theorem State.releaseTx_arbiter : (s.releaseTx).arbiter = s.arbiter := rfl
@[simp] theorem State.releaseTx_port : (s.releaseTx).port = s.port := rfl
@[simp] theorem State.releaseTx_journal : (s.releaseTx).journal = s.journal := rfl
@[simp] theorem State.releaseTx_groups : (s.releaseTx).groups = s.groups := rfl
@[simp] theorem State.releaseTx_timer : (s.releaseTx).timer = s.timer := rfl
@[simp] theorem State.releaseTx_params : (s.releaseTx).params = s.params := rfl
@[simp] theorem State.releaseTx_link : (s.releaseTx).link = s.link := rfl
@[simp] theorem State.releaseTx_mbox : (s.releaseTx).mbox = s.mbox := rfl
@[simp] theorem State.releaseTx_status : (s.releaseTx).status = s.status := rfl
@[simp] theorem State.releaseTx_store : (s.releaseTx).store = s.store := rfl
@[simp] theorem State.releaseTx_due : (s.releaseTx).due = s.due := rfl
@[simp] theorem State.releaseTx_freeCount : (s.releaseTx).freeCount = s.freeCount := rfl
@[simp] theorem State.releaseTx_pending : (s.releaseTx).pending = s.pending := rfl

/-! ### `State.startFrame` -/

@[simp] theorem State.startFrame_rst (b : List Byte) : (s.startFrame b).rst = s.rst := rfl
@[simp] theorem State.startFrame_straps (b : List Byte) : (s.startFrame b).straps = s.straps := rfl
@[simp] theorem State.startFrame_strapPins (b : List Byte) : (s.startFrame b).strapPins = s.strapPins := rfl
@[simp] theorem State.startFrame_bus (b : List Byte) : (s.startFrame b).bus = s.bus := rfl
@[simp] theorem State.startFrame_tap (b : List Byte) : (s.startFrame b).tap = s.tap := rfl
@[simp] theorem State.startFrame_places (b : List Byte) : (s.startFrame b).places = s.places := rfl
@[simp] theorem State.startFrame_pool (b : List Byte) : (s.startFrame b).pool = s.pool := rfl
@[simp] theorem State.startFrame_win0 (b : List Byte) : (s.startFrame b).win0 = s.win0 := rfl
@[simp] theorem State.startFrame_arbiter (b : List Byte) : (s.startFrame b).arbiter = s.arbiter := rfl
@[simp] theorem State.startFrame_port (b : List Byte) : (s.startFrame b).port = s.port := rfl
@[simp] theorem State.startFrame_journal (b : List Byte) : (s.startFrame b).journal = s.journal := rfl
@[simp] theorem State.startFrame_groups (b : List Byte) : (s.startFrame b).groups = s.groups := rfl
@[simp] theorem State.startFrame_timer (b : List Byte) : (s.startFrame b).timer = s.timer := rfl
@[simp] theorem State.startFrame_params (b : List Byte) : (s.startFrame b).params = s.params := rfl
@[simp] theorem State.startFrame_link (b : List Byte) : (s.startFrame b).link = s.link := rfl
@[simp] theorem State.startFrame_mbox (b : List Byte) : (s.startFrame b).mbox = s.mbox := rfl
@[simp] theorem State.startFrame_status (b : List Byte) : (s.startFrame b).status = s.status := rfl
@[simp] theorem State.startFrame_store (b : List Byte) : (s.startFrame b).store = s.store := rfl
@[simp] theorem State.startFrame_due (b : List Byte) : (s.startFrame b).due = s.due := rfl
@[simp] theorem State.startFrame_freeCount (b : List Byte) : (s.startFrame b).freeCount = s.freeCount := rfl
@[simp] theorem State.startFrame_pending (b : List Byte) : (s.startFrame b).pending = s.pending := rfl

/-! ### Places -/

@[simp] theorem State.win_setPlace (n : WinNo) (w : Option Window) : (s.setPlace n w).win n = w := by
  simp [State.win, State.setPlace]

theorem State.win_setPlace_ne (n m : WinNo) (w : Option Window) (h : m ≠ n) : (s.setPlace n w).win m = s.win m := by
  simp [State.win, State.setPlace, Fin.val_inj, Ne.symm h]

@[simp] theorem State.win_modWin (n : WinNo) (f : Window → Window) : (s.modWin n f).win n = (s.win n).map f := by
  simp [State.modWin]

theorem State.win_modWin_ne (n m : WinNo) (f : Window → Window) (h : m ≠ n) : (s.modWin n f).win m = s.win m := by
  simp [State.modWin, State.win_setPlace_ne _ _ _ _ h]

@[simp] theorem State.win_modAll (n : WinNo) (f : Window → Window) : (s.modAll f).win n = (s.win n).map f := by
  simp [State.win, State.modAll]

/-! ### Going LIVE and the purge -/

@[simp] theorem Window.goLive_state (w : Window) (k : Nat) : (w.goLive k).state = .live := rfl

@[simp] theorem Window.goLive_fence (w : Window) (k : Nat) : (w.goLive k).fence = k := rfl

@[simp] theorem Window.goLive_swapped (w : Window) (k : Nat) : (w.goLive k).ov.swapped = false := rfl

@[simp] theorem Window.purged_state (w : Window) : w.purged.state = .idle := rfl

@[simp] theorem Window.purged_swapped (w : Window) : w.purged.ov.swapped = w.ov.swapped := rfl

/-! ### The outcome -/

/-- A next state is determined. -/
theorem next_inj {φ ρ : Type} {a b : State} : ((.next a : Host.Outcome State φ ρ) = .next b) ↔ a = b :=
  ⟨fun h => by cases h; rfl, fun h => h ▸ rfl⟩

end Sys2Proof.Machine

end
end

