-- ==== Sys2Proof/Laws/Lists.lean ====
section
/-! SUPPORT. The lists of the journal, the neighbour table and the frames: each way the machine changes one keeps its
law. -/

section

set_option Elab.async false


namespace Sys2Proof.Machine

/-! ### The journal's list -/

theorem EntriesLaw.filter {l : List Entry} (h : EntriesLaw l) (p : Entry → Bool) : EntriesLaw (l.filter p) :=
  ⟨le_trans (List.length_filter_le _ _) h.1, fun e k => h.2.1 e (List.mem_of_mem_filter k), h.2.2.filter p⟩

/-- A move that keeps the run and the class of every entry. -/
theorem EntriesLaw.map {l : List Entry} (h : EntriesLaw l) (f : Entry → Entry)
    (k : ∀ e, (f e).first = e.first ∧ (f e).last = e.last ∧ (f e).cls = e.cls) : EntriesLaw (l.map f) := by
  refine ⟨by simpa using h.1, ?_, ?_⟩
  · intro e m
    obtain ⟨x, hx, rfl⟩ := List.mem_map.1 m
    simpa [Entry.runOk, (k x).1, (k x).2.1] using h.2.1 x hx
  · rw [List.pairwise_map]
    exact h.2.2.imp fun {a b} r => by rw [(k a).2.2, (k b).2.2]; exact r

theorem EntriesLaw.eraseIdx {l : List Entry} (h : EntriesLaw l) (i : Nat) : EntriesLaw (l.eraseIdx i) :=
  ⟨le_trans (List.length_eraseIdx_le _ _) h.1, fun e k => h.2.1 e (List.mem_of_mem_eraseIdx k),
    h.2.2.sublist (List.eraseIdx_sublist _ _)⟩

/-- One entry gets another run of 1 to 14 granules. -/
theorem EntriesLaw.modify {l : List Entry} (h : EntriesLaw l) (i : Nat) (f : Entry → Entry)
    (k : ∀ e, l[i]? = some e → (f e).runOk) (c : ∀ e, (f e).cls = e.cls) : EntriesLaw (l.modify i f) := by
  obtain ⟨h1, h2, h3⟩ := h
  refine ⟨by simpa using h1, ?_, ?_⟩
  · intro e m
    obtain ⟨j, hj, rfl⟩ := List.mem_iff_getElem.1 m
    rw [List.getElem_modify]
    have hj' : j < l.length := by simpa using hj
    split
    · rename_i e
      subst e
      exact k _ (List.getElem?_eq_getElem hj')
    · exact h2 _ (List.getElem_mem hj')
  · have hc : (l.modify i f).map Entry.cls = l.map Entry.cls := by
      apply List.ext_getElem
      · simp
      · intro j a b
        simp only [List.getElem_map, List.getElem_modify]
        split <;> simp [c]
    have : ((l.modify i f).map Entry.cls).Pairwise (· ≤ ·) := by rw [hc, List.pairwise_map]; exact h3
    rwa [List.pairwise_map] at this

/-- A new entry at the tail of its class. -/
theorem EntriesLaw.insertTail {l : List Entry} (h : EntriesLaw l) (e : Entry) (room : l.length < 48) (k : e.runOk) :
    EntriesLaw (insertTail e l) := by
  obtain ⟨h1, h2, h3⟩ := h
  unfold Sys2Proof.Machine.insertTail
  have split : l.takeWhile (fun x => decide (x.cls ≤ e.cls)) ++ l.dropWhile (fun x => decide (x.cls ≤ e.cls)) = l :=
    List.takeWhile_append_dropWhile
  have len := congrArg List.length split
  rw [List.length_append] at len
  refine ⟨by simp only [List.length_append, List.length_cons]; omega, ?_, ?_⟩
  · intro x hx
    rcases List.mem_append.1 hx with m | m
    · exact h2 x ((List.takeWhile_sublist _).mem m)
    · rcases List.mem_cons.1 m with rfl | m
      · exact k
      · exact h2 x ((List.dropWhile_sublist _).mem m)
  · rw [← split, List.pairwise_append] at h3
    obtain ⟨a, b, c⟩ := h3
    have low : ∀ x ∈ l.takeWhile (fun x => decide (x.cls ≤ e.cls)), x.cls ≤ e.cls := fun x m => by
      simpa using List.mem_takeWhile_imp m
    have high : ∀ x ∈ l.dropWhile (fun x => decide (x.cls ≤ e.cls)), e.cls ≤ x.cls := by
      intro x m
      cases hd : l.dropWhile (fun x => decide (x.cls ≤ e.cls)) with
      | nil => simp [hd] at m
      | cons y ys =>
        have hy : e.cls < y.cls := by
          have := List.head_dropWhile_not (fun x => decide (x.cls ≤ e.cls)) (l := l) (by simp [hd])
          simp only [hd, List.head_cons, decide_eq_false_iff_not, not_le] at this
          exact this
        rw [hd] at m b
        rcases List.mem_cons.1 m with rfl | m
        · exact hy.le
        · exact hy.le.trans ((List.pairwise_cons.1 b).1 x m)
    rw [List.pairwise_append]
    refine ⟨a, List.pairwise_cons.2 ⟨high, b⟩, ?_⟩
    intro x m y m'
    rcases List.mem_cons.1 m' with rfl | m'
    · exact low x m
    · exact c x m y m'

theorem lowerOf_iff {n : WinNo} {g : Nat} {e : Entry} (h : e.lowerOf n g = true) : e.last + 1 = g ∧ e.span ≤ 13 := by
  simp only [Entry.lowerOf, Bool.and_eq_true, decide_eq_true_eq] at h
  exact ⟨h.1.2, h.2⟩

theorem upperOf_iff {n : WinNo} {g : Nat} {e : Entry} (h : e.upperOf n g = true) : e.first = g + 1 ∧ e.span ≤ 13 := by
  simp only [Entry.upperOf, Bool.and_eq_true, decide_eq_true_eq] at h
  exact ⟨h.1.2, h.2⟩

/-- An extension or a merge (R59). -/
theorem EntriesLaw.extend {l r : List Entry} (h : EntriesLaw l) {n : WinNo} {g : Nat} {b : Bool}
    (k : extendEntries l n g = some (r, b)) : EntriesLaw r := by
  have run : ∀ {e : Entry} {i : Nat}, l[i]? = some e → e.runOk := fun m => h.2.1 _ (List.mem_of_getElem? m)
  have lower : ∀ {i : Nat}, l.findIdx? (Entry.lowerOf n g) = some i →
      EntriesLaw (l.modify i fun e => { e with last := g }) := by
    intro i hi
    refine h.modify i _ (fun e he => ?_) fun _ => rfl
    obtain ⟨hlt, hp, _⟩ := List.findIdx?_eq_some_iff_getElem.1 hi
    have e1 : l[i] = e := by rw [List.getElem?_eq_getElem hlt] at he; exact Option.some.inj he
    have p := lowerOf_iff (e1 ▸ hp)
    have q := run he
    simp only [Entry.runOk, Entry.span] at p q ⊢
    omega
  have upper : ∀ {i : Nat}, l.findIdx? (Entry.upperOf n g) = some i →
      EntriesLaw (l.modify i fun e => { e with first := g }) := by
    intro i hi
    refine h.modify i _ (fun e he => ?_) fun _ => rfl
    obtain ⟨hlt, hp, _⟩ := List.findIdx?_eq_some_iff_getElem.1 hi
    have e1 : l[i] = e := by rw [List.getElem?_eq_getElem hlt] at he; exact Option.some.inj he
    have p := upperOf_iff (e1 ▸ hp)
    have q := run he
    simp only [Entry.runOk, Entry.span] at p q ⊢
    omega
  unfold extendEntries at k
  split at k
  · simp at k
  · rename_i hi _
    cases k
    exact lower hi
  · rename_i hj
    cases k
    exact upper hj
  · rename_i i j hi hj
    split at k
    · rename_i lo up hlo hup
      split at k
      · rename_i hs
        cases k
        refine EntriesLaw.eraseIdx (h.modify (min i j) (fun e => { e with
          first := lo.first, last := up.last
          attempts := max lo.attempts up.attempts, age := max lo.age up.age }) (fun e _ => ?_) fun _ => rfl) _
        obtain ⟨hlt, hp, _⟩ := List.findIdx?_eq_some_iff_getElem.1 hi
        obtain ⟨hlt', hp', _⟩ := List.findIdx?_eq_some_iff_getElem.1 hj
        have e1 : l[i] = lo := by rw [List.getElem?_eq_getElem hlt] at hlo; exact Option.some.inj hlo
        have e2 : l[j] = up := by rw [List.getElem?_eq_getElem hlt'] at hup; exact Option.some.inj hup
        have p := lowerOf_iff (e1 ▸ hp)
        have p' := upperOf_iff (e2 ▸ hp')
        have q := run hlo
        have q' := run hup
        have m : Config.maxSpan = 14 := rfl
        simp only [Entry.runOk, Entry.span, m] at p p' q q' hs ⊢
        omega
      · split at k
        · cases k; exact lower hi
        · cases k; exact upper hj
    · simp at k

/-- What selection leaves in the journal is a sublist of it, entry by entry but for attempts and sequence (R62, R63). -/
theorem selectWalk_keeps (q : BitVec 8) (l : List Entry) (room : Nat) :
    ((selectWalk q l room).1.map fun e => (e.first, e.last, e.cls)).Sublist (l.map fun e => (e.first, e.last, e.cls)) := by
  induction l generalizing room with
  | nil => exact .slnil
  | cons e l ih =>
    unfold selectWalk
    split
    · split
      · dsimp only
        split
        · exact (ih _).cons_cons _
        · exact (ih _).cons _
      · exact List.Sublist.refl _
    · exact (ih _).cons_cons _

theorem EntriesLaw.select {l : List Entry} (h : EntriesLaw l) (q : BitVec 8) (room : Nat) :
    EntriesLaw (selectWalk q l room).1 := by
  have k := selectWalk_keeps q l room
  refine ⟨?_, ?_, ?_⟩
  · have := k.length_le
    simp only [List.length_map] at this
    exact this.trans h.1
  · intro e m
    have := k.mem (List.mem_map_of_mem m)
    obtain ⟨x, hx, e1⟩ := List.mem_map.1 this
    simp only [Prod.mk.injEq] at e1
    have := h.2.1 x hx
    simp only [Entry.runOk, e1.1, e1.2.1] at this ⊢
    exact this
  · have p : (l.map fun e => (e.first, e.last, e.cls)).Pairwise fun a b => a.2.2 ≤ b.2.2 := by
      rw [List.pairwise_map]; exact h.2.2
    have := p.sublist k
    rwa [List.pairwise_map] at this

/-! ### The neighbour table -/

theorem NodesLaw.filter {t : List Neighbour} (h : NodesLaw t) (p : Neighbour → Bool) : NodesLaw (t.filter p) :=
  ⟨le_trans (List.length_filter_le _ _) h.1, h.2.sublist (List.filter_sublist.map _)⟩

/-- A move that keeps every node number. -/
theorem NodesLaw.map {t : List Neighbour} (h : NodesLaw t) (f : Neighbour → Neighbour) (k : ∀ e, (f e).node = e.node) :
    NodesLaw (t.map f) :=
  ⟨by simpa using h.1, by rw [List.map_map, show Neighbour.node ∘ f = Neighbour.node from funext k]; exact h.2⟩

/-- A new node joins a table with room. -/
theorem NodesLaw.append {t : List Neighbour} (h : NodesLaw t) (e : Neighbour) (room : t.length < 12)
    (k : e.node ∉ t.map Neighbour.node) : NodesLaw (t ++ [e]) := by
  refine ⟨by simp only [List.length_append, List.length_singleton]; omega, ?_⟩
  rw [List.map_append, List.nodup_append]
  refine ⟨h.2, by simp, ?_⟩
  intro a ha b hb
  simp only [List.map_cons, List.map_nil, List.mem_singleton] at hb
  subst hb
  exact fun e => k (e ▸ ha)

/-- A new node takes the place of another (R113). -/
theorem NodesLaw.replace {t : List Neighbour} (h : NodesLaw t) (e : Neighbour) (old : Nat)
    (k : e.node ∉ t.map Neighbour.node) : NodesLaw (t.map fun x => if x.node = old then e else x) := by
  refine ⟨by simpa using h.1, ?_⟩
  have h2 := h.2
  clear h
  induction t with
  | nil => simp
  | cons x t ih =>
    simp only [List.map_cons, List.nodup_cons, List.mem_cons, not_or] at h2 k ⊢
    refine ⟨?_, ih k.2 h2.2⟩
    have rest : ∀ y ∈ t.map fun x => if x.node = old then e else x, y = e ∨ y ∈ t := by
      intro y m
      obtain ⟨z, hz, rfl⟩ := List.mem_map.1 m
      split
      · exact .inl rfl
      · exact .inr hz
    split
    · rename_i hx
      intro m
      obtain ⟨y, hy, e1⟩ := List.mem_map.1 m
      obtain ⟨z, hz, rfl⟩ := List.mem_map.1 hy
      split at e1
      · rename_i hz'
        exact h2.1 (hx ▸ hz' ▸ List.mem_map_of_mem hz)
      · exact k.2 (e1 ▸ List.mem_map_of_mem hz)
    · intro m
      obtain ⟨y, hy, e1⟩ := List.mem_map.1 m
      rcases rest y hy with rfl | hy
      · exact k.1 e1
      · exact h2.1 (e1 ▸ List.mem_map_of_mem hy)

end Sys2Proof.Machine

end
end

