-- ==== Sys2Proof/Laws/Stable.lean ====
section
/-! SUPPORT. The frame that most of the machine's operations share: reset control, straps, bus, Bus Tap, window 0 image,
parameters, store and queue stay as they were, the pool's free list, every place's granules and definition too, the trim stays in its
range and the pool's memory canonical. `Steady` says so with the pool's bytes unchanged, `Stable` without. One lemma for
each operation; provers take the field they need from it. -/

section

set_option Elab.async false


namespace Sys2Proof.Machine

/-- What a window keeps until its place is freed or redefined: its granules and its definition. -/
def Window.lot (w : Window) : List Nat × Definition := (w.held, w.defn)

/-- What each place keeps, and which places are FREE. -/
def State.lots (s : State) (n : WinNo) : Option (List Nat × Definition) := (s.win n).map Window.lot

/-- What everything but the bus, the drain, resets and a few commands leaves as it was. -/
structure Stable (s t : State) : Prop where
  rst : t.rst = s.rst
  straps : t.straps = s.straps
  bus : t.bus = s.bus
  tap : t.tap = s.tap
  win0 : t.win0 = s.win0
  params : t.params = s.params
  store : t.store = s.store
  freeCount : t.freeCount = s.freeCount
  pending : t.pending = s.pending
  free : t.pool.free = s.pool.free
  usable : t.pool.usable = s.pool.usable
  lots : ∀ n, t.lots n = s.lots n
  mem : Memory.wf Config.imageDefault s.pool.mem = true → Memory.wf Config.imageDefault t.pool.mem = true
  trim : TrimLaw s → TrimLaw t
  journal : JournalLaw s → JournalLaw t
  neighbours : NeighbourLaw s → NeighbourLaw t
  frames : FrameLaw s → FrameLaw t

/-- As `Stable`, with the pool's bytes unchanged. -/
structure Steady (s t : State) : Prop where
  stable : Stable s t
  pool : t.pool = s.pool

/-- The parts of the state that decide `Steady`. -/
def State.core (s : State) :=
  (s.rst, s.straps, s.bus, s.tap, s.win0, s.params, s.store, s.freeCount, s.pending, s.pool, s.places, s.timer.trim)

variable {s t u : State}

theorem Stable.refl (s : State) : Stable s s :=
  ⟨rfl, rfl, rfl, rfl, rfl, rfl, rfl, rfl, rfl, rfl, rfl, fun _ => rfl, id, id, id, id, id⟩

theorem Stable.trans (h : Stable s t) (k : Stable t u) : Stable s u :=
  ⟨k.rst.trans h.rst, k.straps.trans h.straps, k.bus.trans h.bus, k.tap.trans h.tap, k.win0.trans h.win0,
    k.params.trans h.params, k.store.trans h.store, k.freeCount.trans h.freeCount, k.pending.trans h.pending,
    k.free.trans h.free, k.usable.trans h.usable, fun n => (k.lots n).trans (h.lots n), k.mem ∘ h.mem, k.trim ∘ h.trim,
    k.journal ∘ h.journal, k.neighbours ∘ h.neighbours, k.frames ∘ h.frames⟩

theorem Steady.refl (s : State) : Steady s s := ⟨.refl s, rfl⟩

theorem Steady.trans (h : Steady s t) (k : Steady t u) : Steady s u :=
  ⟨h.stable.trans k.stable, k.pool.trans h.pool⟩

/-- Nothing of the core has changed, and the journal, the neighbour table and the frames keep their laws. -/
theorem Steady.of_core (h : t.core = s.core)
    (j : EntriesLaw s.journal.entries → EntriesLaw t.journal.entries := by exact id)
    (n : NodesLaw s.link.table → NodesLaw t.link.table := by exact id)
    (f : FramesLaw s.fe → FramesLaw t.fe := by exact id) : Steady s t := by
  simp only [State.core, Prod.mk.injEq] at h
  obtain ⟨h1, h2, h3, h4, h5, h6, h7, h8, h9, h10, h11, h12⟩ := h
  exact ⟨⟨h1, h2, h3, h4, h5, h6, h7, h8, h9, by rw [h10], by rw [h10],
    fun n => by simp [State.lots, State.win, h11], by rw [h10]; exact id,
    by unfold TrimLaw; rw [h12]; exact id, j, n, f⟩, h10⟩

/-- A fold of steady moves is steady. -/
theorem Steady.foldl {α : Type} (f : State → α → State) (h : ∀ s a, Steady s (f s a)) (l : List α) (s : State) :
    Steady s (l.foldl f s) := by
  induction l generalizing s with
  | nil => exact .refl s
  | cons a l ih => exact (h s a).trans (ih _)

/-- A fold of stable moves is stable. -/
theorem Stable.foldl {α : Type} (f : State → α → State) (h : ∀ s a, Stable s (f s a)) (l : List α) (s : State) :
    Stable s (l.foldl f s) := by
  induction l generalizing s with
  | nil => exact .refl s
  | cons a l ih => exact (h s a).trans (ih _)

/-- Either branch of a choice. -/
theorem Steady.ite {c : Prop} [Decidable c] (h : Steady s t) (k : Steady s u) : Steady s (if c then t else u) := by
  split <;> assumption

/-- Changing a window that keeps its granules. -/
theorem Steady.setPlace {n : WinNo} {w w' : Window} (h : s.win n = some w) (k : w'.lot = w.lot) :
    Steady s (s.setPlace n (some w')) where
  stable := { Stable.refl s with
    lots := fun m => by
      by_cases e : m = n
      · subst e; simp [State.lots, h, k]
      · simp [State.lots, State.win_setPlace_ne _ _ _ _ e] }
  pool := rfl

/-- Changing a window in place by a move that keeps granules. -/
theorem Steady.modWin (s : State) (n : WinNo) (f : Window → Window) (h : ∀ w, (f w).lot = w.lot) :
    Steady s (s.modWin n f) where
  stable := { Stable.refl s with
    lots := fun m => by
      by_cases e : m = n
      · subst e; cases hw : s.win m <;> simp [State.lots, hw, h]
      · simp [State.lots, State.win_modWin_ne _ _ _ _ e] }
  pool := rfl

/-- Changing every window by a move that keeps granules. -/
theorem Steady.modAll (s : State) (f : Window → Window) (h : ∀ w, (f w).lot = w.lot) : Steady s (s.modAll f) where
  stable := { Stable.refl s with
    lots := fun m => by cases hw : s.win m <;> simp [State.lots, hw, h] }
  pool := rfl

/-- Changing the Link Controller, the Frame Engine or the agenda. -/
theorem link_steady (s : State) (l : Link) (h : NodesLaw s.link.table → NodesLaw l.table := by exact id) :
    Steady s { s with link := l } := .of_core rfl (n := h)
theorem fe_steady (s : State) (f : FrameEngine) (h : FramesLaw s.fe → FramesLaw f := by exact id) :
    Steady s { s with fe := f } := .of_core rfl (f := h)
theorem due_steady (s : State) (l : List Duty) : Steady s { s with due := l } := .of_core rfl

/-! ### Alerts, counters, the port -/

theorem raise_steady (s : State) (a : Alert) : Steady s (s.raise a) := .of_core rfl
theorem countN_steady (s : State) (c : Counter) (k : Nat) : Steady s (s.countN c k) := .of_core rfl
theorem count_steady (s : State) (c : Counter) : Steady s (s.count c) := .of_core rfl
theorem endGrant_steady (s : State) : Steady s s.endGrant := .of_core rfl
theorem completeAs_steady (s : State) (e : Word) (r : ResultCode) (d : List Byte) : Steady s (s.completeAs e r d) :=
  .of_core rfl
theorem complete_steady (s : State) (r : ResultCode) (d : List Byte) : Steady s (s.complete r d) := .of_core rfl
theorem await_steady (s : State) (w : Work) : Steady s (s.await w) := .of_core rfl

/-- The window of a LIVE place. -/
theorem win_of_liveWin {n : WinNo} {w : Window} (h : s.liveWin n = some w) : s.win n = some w ∧ w.state = .live := by
  unfold State.liveWin at h
  split at h
  · split at h
    · simp_all
    · simp at h
  · simp at h

/-! ### The journal -/

theorem setEntries_steady (s : State) (l : List Entry) (h : EntriesLaw s.journal.entries → EntriesLaw l) :
    Steady s (s.setEntries l) := .of_core rfl (j := h)

theorem markWaiting_steady (s : State) (n : WinNo) (g : Nat) : Steady s (s.markWaiting n g) :=
  .modWin s n _ fun _ => rfl

theorem offer_steady (s : State) (n : WinNo) (g : Nat) : Steady s (s.offer n g).1 := by
  unfold State.offer
  split
  · rename_i k
    exact ((setEntries_steady s _ (EntriesLaw.extend · k)).trans (markWaiting_steady _ n g)).trans (count_steady _ _)
  · rename_i k
    exact ((setEntries_steady s _ (EntriesLaw.extend · k)).trans (markWaiting_steady _ n g)).trans (countN_steady _ _ _)
  · split
    · rename_i room
      exact ((setEntries_steady s _ (EntriesLaw.insertTail · _ room (by simp [Entry.runOk]))).trans
        (markWaiting_steady _ n g)).trans (count_steady _ _)
    · split
      · rename_i w hw
        have h : Steady s (s.setPlace n (some { w with pub := { w.pub with backlog := true } })) := .setPlace hw rfl
        dsimp only
        split
        · exact h
        · exact h.trans (raise_steady _ _)
      · exact .refl s

theorem scanGranule_steady (n : WinNo) (r : ScanState × Bool) (g : Nat) : Steady r.1.s (scanGranule n r g).1.s := by
  unfold scanGranule
  split
  · exact offer_steady _ _ _
  · exact .refl _

theorem scanWindow_steady (a : ScanState) (n : WinNo) : Steady a.s (scanWindow a n).s := by
  have fold : ∀ (l : List Nat) (r : ScanState × Bool), Steady r.1.s (l.foldl (scanGranule n) r).1.s := by
    intro l
    induction l with
    | nil => intro r; exact .refl _
    | cons g l ih => intro r; exact (scanGranule_steady n r g).trans (ih _)
  unfold scanWindow
  split
  · split
    · dsimp only
      split
      · exact fold _ (a, false)
      · exact (fold _ (a, false)).trans (.modWin _ n _ fun _ => rfl)
    · exact .refl _
  · exact .refl _

theorem scanOnce_steady (s : State) : Steady s s.scanOnce.s := by
  have fold : ∀ (l : List WinNo) (a : ScanState), Steady a.s (l.foldl scanWindow a).s := by
    intro l
    induction l with
    | nil => intro a; exact .refl _
    | cons n l ih => intro a; exact (scanWindow_steady a n).trans (ih _)
  exact fold places1to31 { s := s, merged := false, again := false }

theorem scanFuel_steady (k : Nat) (s : State) : Steady s (scanFuel k s) := by
  induction k generalizing s with
  | zero => exact .refl s
  | succ k ih =>
    unfold scanFuel
    dsimp only
    split
    · exact (scanOnce_steady s).trans (ih _)
    · exact scanOnce_steady s

theorem backlogScan_steady (s : State) : Steady s s.backlogScan := scanFuel_steady _ s

theorem queueRequest_steady (s : State) (n : WinNo) (g : Nat) : Steady s (s.queueRequest n g) := by
  unfold State.queueRequest
  dsimp only
  split
  · exact (offer_steady s n g).trans (backlogScan_steady _)
  · exact offer_steady s n g

theorem offerRun_steady (s : State) (n : WinNo) (a b : Nat) : Steady s (s.offerRun n a b) :=
  .foldl _ (fun s g => .ite (offer_steady s n g) (.refl s)) _ s

theorem queueRun_steady (s : State) (n : WinNo) (a b : Nat) : Steady s (s.queueRun n a b) :=
  .foldl _ (fun s g => .ite (queueRequest_steady s n g) (.refl s)) _ s

theorem change_steady (s : State) (n : WinNo) (g : Nat) : Steady s (s.change n g) := by
  unfold State.change
  split
  · rename_i w hw
    have hw := (win_of_liveWin hw).1
    have set : ∀ x, Steady s (s.setPlace n (some (w.setGran g x))) := fun x => .setPlace hw rfl
    split
    · split
      · exact .ite ((set _).trans (queueRequest_steady _ n g)) (set _)
      · exact .ite ((set _).trans (queueRequest_steady _ n g)) (set _)
      · exact .refl s
      · exact set _
      · exact set _
    · exact .refl s
  · exact .refl s

theorem changeAll_steady (s : State) (n : WinNo) (gs : List Nat) : Steady s (s.changeAll n gs) :=
  .foldl _ (fun s g => change_steady s n g) _ s

theorem moveGrans_steady (s : State) (e : Entry) (f : GranState → GranState) : Steady s (s.moveGrans e f) :=
  .modWin s _ _ fun _ => rfl

theorem moveAll_steady (s : State) (f : GranState → GranState) (l : List Entry) :
    Steady s (l.foldl (fun t e => t.moveGrans e f) s) :=
  .foldl _ (fun s e => moveGrans_steady s e f) l s

/-- Moving publication states leaves the Frame Engine as it was. -/
theorem moveAll_fe (s : State) (f : GranState → GranState) (l : List Entry) :
    (l.foldl (fun t e => t.moveGrans e f) s).fe = s.fe := by
  induction l generalizing s with
  | nil => rfl
  | cons e l ih => exact (ih _).trans rfl

theorem offerAll_steady (s : State) (l : List Entry) :
    Steady s (l.foldl (fun t e => t.offerRun e.win e.first e.last) s) :=
  .foldl _ (fun s e => offerRun_steady s e.win e.first e.last) l s

theorem acknowledge_steady (s : State) (f : SentFrame) : Steady s (s.acknowledge f) := by
  unfold State.acknowledge
  dsimp only
  split
  · exact .refl s
  · exact (((setEntries_steady s _ (EntriesLaw.filter · _)).trans (moveAll_steady _ _ _)).trans (offerAll_steady _ _)).trans
      (backlogScan_steady _)

theorem loseFrame_steady (s : State) (f : SentFrame) : Steady s (s.loseFrame f) := by
  unfold State.loseFrame
  dsimp only
  have base := fun l h m n k => (((setEntries_steady s l h).trans (moveAll_steady _ GranState.returned m)).trans
    (moveAll_steady _ GranState.dropped n)).trans (countN_steady _ .dropped k)
  have law : ∀ (p q : Entry → Bool), EntriesLaw s.journal.entries → EntriesLaw
      ((s.journal.entries.filter p).map fun e => if q e then { e with seq := none } else e) :=
    fun p q h => (h.filter p).map _ fun e => by split <;> exact ⟨rfl, rfl, rfl⟩
  split
  · exact base _ (law _ _) _ _ _
  · exact ((base _ (law _ _) _ _ _).trans (offerAll_steady _ _)).trans (backlogScan_steady _)

theorem setSent_steady (s : State) (l : List SentFrame) (h : l.length ≤ s.fe.sent.length) : Steady s (s.setSent l) :=
  fe_steady s _ fun k => ⟨h.trans k.1, k.2⟩

theorem revert_steady (s : State) : Steady s s.revert := by
  have law : EntriesLaw s.journal.entries → EntriesLaw (s.journal.entries.map fun e => { e with seq := none }) :=
    fun h => h.map _ fun _ => ⟨rfl, rfl, rfl⟩
  exact ((setEntries_steady s _ law).trans (moveAll_steady _ _ _)).trans (setSent_steady _ [] (Nat.zero_le _))

theorem ageJournal_steady (s : State) (skip : WinNo → Bool) : Steady s (s.ageJournal skip) :=
  (((setEntries_steady s _ fun h => EntriesLaw.filter (h.map _ fun e => by split <;> exact ⟨rfl, rfl, rfl⟩) _).trans
    (moveAll_steady _ _ _)).trans (countN_steady _ _ _)).trans (backlogScan_steady _)

theorem purgeEntries_steady (s : State) (n : WinNo) : Steady s (s.purgeEntries n) :=
  .of_core rfl (j := (EntriesLaw.filter · _)) (f := fun h => ⟨by simpa [State.purgeEntries] using h.1, h.2⟩)

/-! ### Groups and overlays -/

theorem setGroup_steady (s : State) (g : GroupNo) (x : Group) : Steady s (s.setGroup g x) := .of_core rfl

theorem emptyStaging_steady (s : State) (g : GroupNo) : Steady s (s.emptyStaging g) := by
  refine (Steady.modAll s _ fun w => ?_).trans (setGroup_steady _ _ _)
  split <;> rfl

theorem discardStaging_steady (s : State) (g : GroupNo) : Steady s (s.discardStaging g) := by
  unfold State.discardStaging
  dsimp only
  split
  · exact ((emptyStaging_steady s g).trans (count_steady _ _)).trans (raise_steady _ _)
  · exact emptyStaging_steady s g

theorem memberChange_steady (s : State) (g : GroupNo) (b : Bool) : Steady s (s.memberChange g b) := by
  unfold State.memberChange
  dsimp only
  split
  · exact .refl s
  · split
    · exact (discardStaging_steady s g).trans (setGroup_steady _ _ _)
    · exact discardStaging_steady s g

theorem recordDone_steady (s : State) : Steady s s.recordDone :=
  fe_steady s _ fun ⟨a, b, c⟩ => by
    refine ⟨a, b, ?_⟩
    dsimp only
    split <;> rename_i e <;> simp only [e, List.length_cons] at c ⊢ <;> omega

theorem discardRecord_steady (s : State) : Steady s s.discardRecord :=
  (count_steady s _).trans (recordDone_steady _)

theorem acceptRecord_steady (s : State) (n : WinNo) (r : Option Word) : Steady s (s.acceptRecord n r) :=
  .of_core rfl

theorem stageRecord_steady (s : State) (n : WinNo) (g : GroupNo) (r : Word) : Steady s (s.stageRecord n g r) := by
  unfold State.stageRecord
  split
  · split
    · exact ((emptyStaging_steady s g).trans (setGroup_steady _ _ _)).trans (acceptRecord_steady _ _ _)
    · split
      · exact ((discardStaging_steady s g).trans (setGroup_steady _ _ _)).trans (acceptRecord_steady _ _ _)
      · exact acceptRecord_steady _ _ _
      · exact discardRecord_steady s
  · exact discardRecord_steady s

theorem beginRecord_steady (s : State) (n : WinNo) (d : Delivery) : Steady s (s.beginRecord n d) := by
  unfold State.beginRecord
  split
  · exact .ite (discardRecord_steady s)
      (.ite (.ite (discardRecord_steady s) (acceptRecord_steady _ _ _)) (stageRecord_steady _ _ _ _))
  · exact discardRecord_steady s

theorem swapGroup_steady (s : State) (g : GroupNo) (r : Word) : Steady s (s.swapGroup g r) := by
  refine ((Steady.modAll s _ fun w => ?_).trans (setGroup_steady _ _ _)).trans (count_steady _ _)
  split
  · split <;> rfl
  · rfl

theorem tryComplete_steady (s : State) (g : GroupNo) (r : Word) : Steady s (s.tryComplete g r) :=
  .ite (swapGroup_steady s g r) (.refl s)

theorem ageWindow_steady (s : State) (n : WinNo) : Steady s (s.ageWindow n) := by
  unfold State.ageWindow
  split
  · rename_i w hw
    have hw := (win_of_liveWin hw).1
    have ex : Steady s ((s.setPlace n (some w.expire)).raise .windowExpired) :=
      (Steady.setPlace (w' := w.expire) hw rfl).trans (raise_steady _ _)
    split
    · split
      · dsimp only
        split
        · exact ex
        · exact (ex.trans (discardStaging_steady _ _)).trans (setGroup_steady _ _ _)
      · exact .ite (.setPlace (w' := w.refillExpire) hw rfl) (.setPlace hw rfl)
    · exact .refl s
  · exact .refl s

theorem ageStaging_steady (s : State) (g : GroupNo) : Steady s (s.ageStaging g) :=
  .ite (.ite (discardStaging_steady s g) (setGroup_steady _ _ _)) (.refl s)

end Sys2Proof.Machine

end
end

