-- ==== Sys2Proof/Laws/Quiet.lean ====
section
/-! SUPPORT. The frame of the journal's own steps: queueing, scans, acknowledgement and loss change nothing but entries,
publication states, backlog flags, counters and pending alerts (R52 to R70). -/

section

set_option Elab.async false


namespace Sys2Proof.Machine

variable {s t u : State}

theorem JournalOnly.refl (s : State) : JournalOnly s s :=
  ⟨rfl, rfl, rfl, fun _ h => h, fun _ v h => ⟨v.pub.states, v.pub.backlog, rfl, h⟩⟩

theorem JournalOnly.trans (h : JournalOnly s t) (k : JournalOnly t u) : JournalOnly s u where
  rest := by rw [k.rest, h.rest]
  hold := k.hold.trans h.hold
  status := by rw [k.status, h.status]
  free n e := k.free n (h.free n e)
  kept n v e := by
    obtain ⟨x, b, hl, hw⟩ := h.kept n v e
    obtain ⟨y, c, hl', hw'⟩ := k.kept n _ hw
    exact ⟨y, c, hl'.trans hl, hw'⟩

theorem JournalOnly.ite {c : Prop} [Decidable c] (h : JournalOnly s t) (k : JournalOnly s u) :
    JournalOnly s (if c then t else u) := by split <;> assumption

theorem JournalOnly.foldl {α : Type} (f : State → α → State) (h : ∀ s a, JournalOnly s (f s a)) (l : List α)
    (s : State) : JournalOnly s (l.foldl f s) := by
  induction l generalizing s with
  | nil => exact .refl s
  | cons a l ih => exact (h s a).trans (ih _)

/-- A window whose publication states or backlog flag move. -/
theorem JournalOnly.setPlace {n : WinNo} {w : Window} (h : s.win n = some w) (x : List GranState) (b : Bool)
    (k : x.length = w.pub.states.length) :
    JournalOnly s (s.setPlace n (some { w with pub := { w.pub with states := x, backlog := b } })) where
  rest := rfl
  hold := rfl
  status := rfl
  free m e := by
    have hm : m ≠ n := by rintro rfl; rw [h] at e; cases e
    rw [State.win_setPlace_ne _ _ _ _ hm]; exact e
  kept m v e := by
    by_cases hm : m = n
    · subst hm
      rw [h] at e; cases e
      exact ⟨x, b, k, by simp⟩
    · exact ⟨v.pub.states, v.pub.backlog, rfl, by rw [State.win_setPlace_ne _ _ _ _ hm]; exact e⟩

theorem JournalOnly.modWin (s : State) (n : WinNo) (f : Window → Window)
    (h : ∀ w, ∃ x b, x.length = w.pub.states.length ∧ f w = { w with pub := { w.pub with states := x, backlog := b } }) :
    JournalOnly s (s.modWin n f) where
  rest := rfl
  hold := rfl
  status := rfl
  free m e := by
    by_cases hm : m = n
    · subst hm; simp [e]
    · rw [State.win_modWin_ne _ _ _ _ hm]; exact e
  kept m v e := by
    by_cases hm : m = n
    · subst hm
      obtain ⟨x, b, k, hf⟩ := h v
      exact ⟨x, b, k, by rw [State.win_modWin, e, Option.map_some, hf]⟩
    · exact ⟨v.pub.states, v.pub.backlog, rfl, by rw [State.win_modWin_ne _ _ _ _ hm]; exact e⟩

theorem setEntries_quiet (s : State) (l : List Entry) : JournalOnly s (s.setEntries l) :=
  ⟨rfl, rfl, rfl, fun _ h => h, fun _ v h => ⟨v.pub.states, v.pub.backlog, rfl, h⟩⟩

theorem countN_quiet (s : State) (c : Counter) (k : Nat) : JournalOnly s (s.countN c k) :=
  ⟨rfl, rfl, rfl, fun _ h => h, fun _ v h => ⟨v.pub.states, v.pub.backlog, rfl, h⟩⟩

theorem raise_quiet (s : State) {a : Alert} (h : a ≠ .linkLost) : JournalOnly s (s.raise a) :=
  ⟨rfl, rfl, by simp [State.raise, h], fun _ h => h, fun _ v h => ⟨v.pub.states, v.pub.backlog, rfl, h⟩⟩

theorem markWaiting_quiet (s : State) (n : WinNo) (g : Nat) : JournalOnly s (s.markWaiting n g) :=
  .modWin s n _ fun w => ⟨w.pub.states.set g .waiting, w.pub.backlog, by simp, rfl⟩

theorem moveGrans_quiet (s : State) (e : Entry) (f : GranState → GranState) : JournalOnly s (s.moveGrans e f) :=
  .modWin s _ _ fun w => ⟨_, w.pub.backlog, by simp, rfl⟩

theorem offer_quiet (s : State) (n : WinNo) (g : Nat) : JournalOnly s (s.offer n g).1 := by
  unfold State.offer
  split
  · exact ((setEntries_quiet s _).trans (markWaiting_quiet _ n g)).trans (countN_quiet _ _ _)
  · exact ((setEntries_quiet s _).trans (markWaiting_quiet _ n g)).trans (countN_quiet _ _ _)
  · split
    · exact ((setEntries_quiet s _).trans (markWaiting_quiet _ n g)).trans (countN_quiet _ _ _)
    · split
      · rename_i w hw
        have h : JournalOnly s (s.setPlace n (some { w with pub := { w.pub with backlog := true } })) :=
          .setPlace hw w.pub.states true rfl
        dsimp only
        split
        · exact h
        · exact h.trans (raise_quiet _ (by decide))
      · exact .refl s

theorem scanGranule_quiet (n : WinNo) (r : ScanState × Bool) (g : Nat) :
    JournalOnly r.1.s (scanGranule n r g).1.s := by
  unfold scanGranule
  split
  · exact offer_quiet _ _ _
  · exact .refl _

theorem scanWindow_quiet (a : ScanState) (n : WinNo) : JournalOnly a.s (scanWindow a n).s := by
  have fold : ∀ (l : List Nat) (r : ScanState × Bool), JournalOnly r.1.s (l.foldl (scanGranule n) r).1.s := by
    intro l
    induction l with
    | nil => intro r; exact .refl _
    | cons g l ih => intro r; exact (scanGranule_quiet n r g).trans (ih _)
  unfold scanWindow
  split
  · split
    · dsimp only
      split
      · exact fold _ (a, false)
      · exact (fold _ (a, false)).trans (.modWin _ n _ fun w => ⟨w.pub.states, false, rfl, rfl⟩)
    · exact .refl _
  · exact .refl _

theorem scanOnce_quiet (s : State) : JournalOnly s s.scanOnce.s := by
  have fold : ∀ (l : List WinNo) (a : ScanState), JournalOnly a.s (l.foldl scanWindow a).s := by
    intro l
    induction l with
    | nil => intro a; exact .refl _
    | cons n l ih => intro a; exact (scanWindow_quiet a n).trans (ih _)
  exact fold places1to31 { s := s, merged := false, again := false }

theorem scanFuel_quiet (k : Nat) (s : State) : JournalOnly s (scanFuel k s) := by
  induction k generalizing s with
  | zero => exact .refl s
  | succ k ih =>
    unfold scanFuel
    dsimp only
    split
    · exact (scanOnce_quiet s).trans (ih _)
    · exact scanOnce_quiet s

theorem backlogScan_quiet (s : State) : JournalOnly s s.backlogScan := scanFuel_quiet _ s

theorem queueRequest_quiet (s : State) (n : WinNo) (g : Nat) : JournalOnly s (s.queueRequest n g) := by
  unfold State.queueRequest
  dsimp only
  split
  · exact (offer_quiet s n g).trans (backlogScan_quiet _)
  · exact offer_quiet s n g

theorem offerRun_quiet (s : State) (n : WinNo) (a b : Nat) : JournalOnly s (s.offerRun n a b) :=
  .foldl _ (fun s g => .ite (offer_quiet s n g) (.refl s)) _ s

theorem queueRun_quiet (s : State) (n : WinNo) (a b : Nat) : JournalOnly s (s.queueRun n a b) :=
  .foldl _ (fun s g => .ite (queueRequest_quiet s n g) (.refl s)) _ s

theorem change_quiet (s : State) (n : WinNo) (g : Nat) : JournalOnly s (s.change n g) := by
  unfold State.change
  split
  · rename_i w hw
    have hw := (win_of_liveWin hw).1
    have set : ∀ x, JournalOnly s (s.setPlace n (some (w.setGran g x))) :=
      fun x => .setPlace hw (w.pub.states.set g x) w.pub.backlog (by simp)
    split
    · split
      · exact .ite ((set _).trans (queueRequest_quiet _ n g)) (set _)
      · exact .ite ((set _).trans (queueRequest_quiet _ n g)) (set _)
      · exact .refl s
      · exact set _
      · exact set _
    · exact .refl s
  · exact .refl s

theorem changeAll_quiet (s : State) (n : WinNo) (gs : List Nat) : JournalOnly s (s.changeAll n gs) :=
  .foldl _ (fun s g => change_quiet s n g) _ s

theorem moveAll_quiet (s : State) (f : GranState → GranState) (l : List Entry) :
    JournalOnly s (l.foldl (fun t e => t.moveGrans e f) s) :=
  .foldl _ (fun s e => moveGrans_quiet s e f) l s

theorem offerAll_quiet (s : State) (l : List Entry) :
    JournalOnly s (l.foldl (fun t e => t.offerRun e.win e.first e.last) s) :=
  .foldl _ (fun s e => offerRun_quiet s e.win e.first e.last) l s

theorem acknowledge_quiet (s : State) (f : SentFrame) : JournalOnly s (s.acknowledge f) := by
  unfold State.acknowledge
  dsimp only
  split
  · exact .refl s
  · exact (((setEntries_quiet s _).trans (moveAll_quiet _ _ _)).trans (offerAll_quiet _ _)).trans
      (backlogScan_quiet _)

theorem loseFrame_quiet (s : State) (f : SentFrame) : JournalOnly s (s.loseFrame f) := by
  unfold State.loseFrame
  dsimp only
  have base := fun l m n k => (((setEntries_quiet s l).trans (moveAll_quiet _ GranState.returned m)).trans
    (moveAll_quiet _ GranState.dropped n)).trans (countN_quiet _ .dropped k)
  split
  · exact base _ _ _ _
  · exact ((base _ _ _ _).trans (offerAll_quiet _ _)).trans (backlogScan_quiet _)

theorem ageJournal_quiet (s : State) (skip : WinNo → Bool) : JournalOnly s (s.ageJournal skip) :=
  (((setEntries_quiet s _).trans (moveAll_quiet _ _ _)).trans (countN_quiet _ _ _)).trans (backlogScan_quiet _)

end Sys2Proof.Machine

end
end

