-- ==== Sys2Proof/Laws/Tap.lean ====
section
/-! SUPPORT. The Bus Tap: bytes and lanes, what window matching depends on, and what a read and a write come to once
their window is known (R3 to R19). -/

section

set_option Elab.async false


namespace Sys2Proof.Machine

/-! ### Bytes of a word -/

@[simp] theorem lowByte_joinBytes (h l : Byte) : lowByte (joinBytes h l) = l := by
  simp only [joinBytes, lowByte]
  exact BitVec.extractLsb'_append_eq_right ..

@[simp] theorem highByte_joinBytes (h l : Byte) : highByte (joinBytes h l) = h := by
  simp only [joinBytes, highByte]
  exact BitVec.extractLsb'_append_eq_left ..

theorem joinBytes_bytes (w : Word) : joinBytes (highByte w) (lowByte w) = w := by
  simp only [joinBytes, highByte, lowByte]
  apply BitVec.eq_of_getLsbD_eq
  intro i hi
  rw [BitVec.getLsbD_append]
  by_cases h : i < 8
  · simp [h]
  · have h8 : i - 8 < 8 := by omega
    have h9 : 8 + (i - 8) = i := by omega
    simp [h, h8, h9]

/-- A lane with the parity bit generated for its byte is parity-good (R5, R6). -/
theorem laneGood_genParity (st : Straps) (b : Byte) : laneGood st b (genParity st b) = true := by
  unfold laneGood genParity
  cases oddOnes b <;> cases st.paren <;> cases st.parodd <;> rfl

/-! ### What matching depends on -/

variable {s t : State}

theorem win_congr (h : t.places = s.places) (n : WinNo) : t.win n = s.win n := by
  unfold State.win
  rw [h]

theorem liveWin_congr (h : t.places = s.places) (n : WinNo) : t.liveWin n = s.liveWin n := by
  unfold State.liveWin
  rw [win_congr h]

theorem placesWhere_congr (h : t.places = s.places) (p : Window → Bool) : t.placesWhere p = s.placesWhere p := by
  unfold State.placesWhere
  simp only [win_congr h]

theorem matchAddr_congr (h : t.straps = s.straps) (k : t.places = s.places) (a : Nat) :
    t.matchAddr a = s.matchAddr a := by
  unfold State.matchAddr
  simp only [win_congr k, placesWhere_congr k, h]

theorem liveWin_of_live {n : WinNo} {w : Window} (h : s.win n = some w) (k : w.state = .live) :
    s.liveWin n = some w := by
  simp [State.liveWin, h, k]

theorem liveWin_of_not_live {n : WinNo} {w : Window} (h : s.win n = some w) (k : w.state ≠ .live) :
    s.liveWin n = none := by
  simp [State.liveWin, h, k]

/-! ### Learning -/

theorem setLearn_self {r : Option LearnRequest} (h : s.tap.learn = r) : s.setLearn r = s := by
  subst h
  rfl

theorem learnRequest_setBus (s : State) (b : BusPins) (c : BusCycle) :
    (s.setBus b).learnRequest c = s.learnRequest c := by
  unfold State.learnRequest
  rw [matchAddr_congr (s := s) (by rfl) (by rfl)]
  cases s.matchAddr (lowAddr c.addr) with
  | none => rfl
  | some m => rfl

/-- A read that makes no request leaves the learning slot as it was. -/
theorem learn_of_none (s : State) {c : BusCycle} (h : s.learnRequest c = none) : s.learn c = s := by
  unfold State.learn
  rw [h]
  split
  · rfl
  · rename_i k
    apply setLearn_self
    cases hl : s.tap.learn with
    | none => rfl
    | some r => simp [hl] at k

/-- The pins of a read that is not substituted are the memory's (R3). -/
theorem readPins_of_none {c : BusCycle} (h : s.substitute c.addr = (none, none)) : s.readPins c = memoryPins c := by
  unfold State.readPins memoryPins
  rw [h]
  cases h1 : c.low <;> cases h2 : c.high <;> simp [laneReturn, joinBytes_bytes]

/-- A read that is neither substituted nor learned only passes (R3). -/
theorem cPortRead_passes {c : BusCycle} (h : s.substitute c.addr = (none, none))
    (k : s.held = false → s.learnRequest c = none) :
    exec (.cPortRead c) s = .next (State.arbitrate { s with bus := some (memoryPins c) }) := by
  unfold exec execCPortRead done
  simp only [readPins_of_none h]
  cases hh : s.held with
  | true => rfl
  | false =>
    rw [learn_of_none _ (by rw [learnRequest_setBus]; exact k hh)]
    rfl

/-- A read whose lanes are substituted returns the bytes substituted (R3, R6). -/
theorem readReturns_of {c : BusCycle} {low high : Byte} (h : s.substitute c.addr = (some low, some high))
    (k : s.learnRequest c = none) : ReadReturns s c low high := by
  have hh : s.held = false := by
    cases hh : s.held with
    | true => simp [State.substitute, hh] at h
    | false => rfl
  refine ⟨s.readPins c, ?_, rfl, rfl, ?_, ?_, ?_, ?_, ?_, ?_⟩
  · unfold exec execCPortRead done
    simp only [hh]
    rw [learn_of_none _ (by rw [learnRequest_setBus]; exact k)]
    rfl
  all_goals simp only [State.readPins, h, lowByte_joinBytes, highByte_joinBytes]
  · cases c.low <;> rfl
  · cases c.high <;> rfl
  · intro h1 h2
    simp [h1, h2, laneReturn, laneGood_genParity]
  · intro h1 h2
    simp [h1, h2, laneReturn, laneGood_genParity]
  · rintro (h1 | h1)
    · simp [h1, laneReturn]
    · cases h2 : c.low <;> simp [h1, laneReturn]
  · rintro (h1 | h1)
    · simp [h1, laneReturn]
    · cases h2 : c.high <;> simp [h1, laneReturn]

/-! ### Writes -/

/-- A capturable write is offered to the FIFO (R12). -/
theorem tapWrite_capturable {c : BusCycle} {n : WinNo} (h : Capturable s c n) : s.tapWrite c = s.capture n c := by
  obtain ⟨-, -, k, hm, hn⟩ := h
  have e : s.tapWrite c = s.writeIn c n k := by
    unfold State.tapWrite lowAddr
    rw [hm]
    rfl
  rw [e]
  unfold State.writeIn
  split
  · rename_i h0
    rw [h0]
  · rename_i h0
    obtain hn | ⟨w, hw, hl, hk⟩ := hn
    · exact absurd hn h0
    · rw [liveWin_of_live hw hl]
      cases hb : w.defn.body with
      | publish d => simp only [hb]
      | subscribe d => simp [Window.isPublish, Window.mode?, Window.isStatus, hb] at hk
      | status =>
        simp only [hb]
        simp only [Window.isPublish, Window.mode?, hb, Option.isSome_none, Bool.false_eq_true, false_or] at hk
        simp [hk.2]

theorem Capturable.setBus {c : BusCycle} {n : WinNo} (h : Capturable s c n) (b : BusPins) :
    Capturable (s.setBus b) c n := by
  obtain ⟨hh, hc, k, hm, hn⟩ := h
  refine ⟨hh, hc, k, ?_, hn⟩
  rw [matchAddr_congr (s := s) (by rfl) (by rfl)]
  exact hm

end Sys2Proof.Machine

end
end

