-- ==== Sys2Proof/Laws/Drain.lean ====
section
/-! SUPPORT. The drain step: what its end does to the FIFO and the fences, and the lanes of an entry (R17, R39 to
R45). -/

section

set_option Elab.async false


namespace Sys2Proof.Machine

variable {s t : State}

/-! ### The end of the step -/

/-- The head leaves: FIFO, fences, counters and alerts change, nothing else. -/
theorem dropHead_rest (s : State) :
    s.dropHead = { s with places := s.fencesDown, tap := s.dropHead.tap, status := s.dropHead.status } := by
  unfold State.dropHead State.insertLoss State.insertEntry
  dsimp only
  split
  · rfl
  · split <;> rfl

theorem dropHead_fifo (s : State) : s.dropHead.tap.fifo = s.fifoAfter s.tap.fifo.tail := by
  unfold State.dropHead State.insertLoss State.insertEntry State.fifoAfter
  dsimp only
  by_cases h : s.tap.loss = 0
  · rw [if_pos (by simpa using h)]
    simp [h]
  · rw [if_neg (by simpa using h)]
    simp only [h, if_false]
    split <;> rfl

theorem dropHead_empty (h : s.tap.loss = 0) :
    s.dropHead = { s with places := s.fencesDown, tap := { s.tap with fifo := s.tap.fifo.tail } } := by
  unfold State.dropHead State.insertLoss
  dsimp only
  rw [if_pos (by simpa using h)]
  rfl

theorem dropHead_full (h : s.tap.loss ≠ 0) (k : s.tap.fifo.tail.length = 63) :
    s.dropHead = { s with
      places := s.fencesDown
      tap := { s.tap with fifo := s.tap.fifo.tail ++ [.loss s.tap.loss], loss := 0, peak := max s.tap.peak 64 }
      status := { s.status with counters := s.status.counters.set 1 (s.status.counters[1] + 1) } } := by
  unfold State.dropHead State.insertLoss State.insertEntry
  dsimp only
  rw [if_neg (by simpa using h)]
  simp only [State.modAll_tap, k]
  rfl

theorem win_fencesDown (h : t.places = s.fencesDown) (n : WinNo) :
    t.win n = (s.win n).map fun w => { w with fence := w.fence - 1 } := by
  unfold State.win
  rw [h]
  unfold State.fencesDown
  simp

theorem dropHead_win (s : State) (n : WinNo) :
    s.dropHead.win n = (s.win n).map fun w => { w with fence := w.fence - 1 } :=
  win_fencesDown (by rw [dropHead_rest]) n

theorem dropHead_counter (s : State) (c : Counter) (h : c ≠ .lossEntries) : s.dropHead.counter c = s.counter c := by
  unfold State.dropHead State.insertLoss State.insertEntry State.counter
  dsimp only
  split
  · rfl
  · have hi : (Counter.lossEntries.index : Nat) ≠ c.index := by
      cases c <;> first | exact absurd rfl h | (simp [Counter.index])
    split <;>
    · simp only [State.count, State.countN, State.raise, Fin.getElem_fin]
      rw [Vector.getElem_set_ne _ _ hi]
      rfl

theorem dropHead_pending (s : State) (i : Nat) (h : s.status.pending.getLsbD i = true) :
    s.dropHead.status.pending.getLsbD i = true := by
  unfold State.dropHead State.insertLoss State.insertEntry
  dsimp only
  split
  · exact h
  · split
    · show (s.status.pending ||| _).getLsbD i = true
      rw [BitVec.getLsbD_or, h, Bool.true_or]
    · exact h

/-! ### The step -/

/-- A requester whose grant is in progress has the port as the state stands (R37). -/
theorem portFor_of_port {g : PortGrant} (h : s.port = some g) (k : g ≠ .mailbox) :
    s.portFor g.requester = some s := by
  have e : s.snapshotGranted = false := by cases g <;> simp_all [State.snapshotGranted]
  unfold State.portFor
  simp [e, h]

/-- DRAIN_STEP carries out the step in progress, with what that step took when it began (R39). -/
theorem exec_drainStep {d : DrainStep} (h : s.port = some (.drain d)) :
    exec .drainStep s = .next (s.drain d).arbitrate := by
  have e : s.portFor .drain = some s := portFor_of_port h (by simp)
  show Host.Outcome.next (State.arbitrate _) = _
  simp only [e, h]

/-- A drain step that took no learning request. -/
theorem drain_step {e : FifoEntry} {rest : List FifoEntry} (h : Draining s e rest) :
    exec .drainStep s = .next ((s.endGrant.applyEntry e none).dropHead).arbitrate := by
  obtain ⟨hg, hf⟩ := h
  rw [exec_drainStep hg]
  simp [State.drain, State.applyTaken, State.drainHead, hf]

end Sys2Proof.Machine

end
end

