-- ==== Sys2Proof/Laws/StableRadio.lean ====
section
/-! SUPPORT. The frame of `Steady` for window states, the Link Controller, the Frame Engine, the Cycle Timer and the
shares of a timer event. -/

section

set_option Elab.async false


namespace Sys2Proof.Machine

/-! ### Window states -/

theorem goLive_steady (s : State) (n : WinNo) : Steady s (s.goLive n) := by
  unfold State.goLive
  split
  · rename_i w hw
    exact (Steady.setPlace (w' := w.goLive s.tap.fifo.length) hw rfl).trans (memberChange_steady _ _ _)
  · exact .refl s

theorem close_steady (s : State) (n : WinNo) : Steady s (s.close n) := by
  unfold State.close
  split
  · rename_i w hw
    exact (Steady.setPlace (w' := { w with state := .closing }) hw rfl).trans (memberChange_steady _ _ _)
  · exact .refl s

theorem purge_steady (s : State) (n : WinNo) : Steady s (s.purge n) :=
  ((purgeEntries_steady s n).trans (.modWin _ n Window.purged fun _ => rfl)).trans
    (backlogScan_steady _)

/-! ### The Link Controller -/

theorem setTable_steady (s : State) (t : List Neighbour) (h : NodesLaw s.link.table → NodesLaw t) :
    Steady s (s.setTable t) := .of_core rfl (n := h)
theorem modNeighbour_steady (s : State) (node : Nat) (f : Neighbour → Neighbour)
    (h : ∀ e, (f e).node = e.node := by intro _; rfl) : Steady s (s.modNeighbour node f) :=
  setTable_steady s _ fun k => k.map _ fun e => by split <;> simp [h]
theorem setJoin_steady (s : State) (j : JoinRequest) : Steady s (s.setJoin j) := .of_core rfl
theorem setLink_steady (s : State) (x : LinkState) : Steady s (s.setLink x) := .of_core rfl
theorem dropTest_steady (s : State) (node : Nat) : Steady s (s.dropTest node) :=
  setTable_steady s _ (NodesLaw.filter · _)
theorem loseRole_steady (s : State) (node : Nat) : Steady s (s.loseRole node) :=
  (modNeighbour_steady s node _).trans (dropTest_steady _ _)
theorem barNode_steady (s : State) (node : Nat) : Steady s (s.barNode node) := modNeighbour_steady s node _
theorem draw_steady (s : State) : Steady s s.draw := .of_core rfl
theorem joinDue_steady (s : State) : Steady s s.joinDue := (draw_steady s).trans (setJoin_steady _ _)
theorem chooseTarget_steady (s : State) (node : Nat) : Steady s (s.chooseTarget node) :=
  (((modNeighbour_steady s node _).trans (link_steady _ _)).trans (setJoin_steady _ _)).trans (joinDue_steady _)
theorem toSearch_steady (s : State) : Steady s s.toSearch := .of_core rfl
theorem enterOff_steady (s : State) : Steady s s.enterOff :=
  .of_core rfl (n := fun _ => ⟨Nat.zero_le _, List.nodup_nil⟩)
    (f := fun h => ⟨h.1, h.2.1, le_trans (Nat.le_add_right _ _) h.2.2⟩)
theorem enterStarting_steady (s : State) : Steady s s.enterStarting := .of_core rfl
theorem clearPersist_steady (s : State) : Steady s s.clearPersist := .of_core rfl
theorem clearReceive_steady (s : State) : Steady s s.clearReceive := .of_core rfl
theorem noteBest_steady (s : State) : Steady s s.noteBest := .of_core rfl
theorem buildGrants_steady (s : State) (k : Option Kept) : Steady s (s.buildGrants k) := .of_core rfl

theorem watchReference_steady {s t : State} (h : Steady s t) : Steady s (s.watchReference t) := by
  refine h.trans ?_
  unfold State.watchReference
  split
  · exact .refl t
  · exact .of_core rfl

theorem scoreBeacon_steady (s : State) (node phase level : Nat) (a c l : Bool) :
    Steady s (s.scoreBeacon node phase level a c l) := by
  unfold State.scoreBeacon
  dsimp only
  split
  · exact .refl s
  · split
    · exact modNeighbour_steady _ _ _
    · rename_i h
      have fresh : node ∉ s.link.table.map Neighbour.node := by simpa [State.neighbour] using h
      split
      · rename_i room
        exact setTable_steady _ _ fun k => k.append _ room fresh
      · split
        · exact .ite (setTable_steady _ _ fun k => k.replace _ _ fresh) (count_steady _ _)
        · exact count_steady _ _

theorem keepBeacon_steady (s : State) (node : Nat) (k : Kept) : Steady s (s.keepBeacon node k) := by
  unfold State.keepBeacon
  split
  · exact .of_core rfl
  · exact .of_core rfl
  · exact .refl s

theorem missNode_steady (s : State) (phase node : Nat) : Steady s (s.missNode phase node) := by
  unfold State.missNode
  split
  · have h : Steady s ((s.modNeighbour node (Neighbour.miss s.params.p)).dropTest node) :=
      (modNeighbour_steady s node _).trans (dropTest_steady _ _)
    exact .ite (.ite (h.trans (count_steady _ _)) h) (.refl s)
  · exact .refl s

theorem joinBest_steady (s : State) : Steady s s.joinBest := by
  unfold State.joinBest
  split
  · exact (chooseTarget_steady s _).trans (setLink_steady _ _)
  · exact toSearch_steady s

theorem dropServing_steady (s : State) : Steady s s.dropServing := by
  unfold State.dropServing
  split
  · exact (loseRole_steady s _).trans (link_steady _ _)
  · exact link_steady _ _

theorem dropTarget_steady (s : State) : Steady s s.dropTarget := by
  unfold State.dropTarget
  split
  · exact (loseRole_steady s _).trans (link_steady _ _)
  · exact link_steady _ _

theorem failTarget_steady (s : State) : Steady s s.failTarget := by
  unfold State.failTarget
  dsimp only
  split
  · exact ((barNode_steady s _).trans (dropTarget_steady _)).trans (count_steady _ _)
  · exact (dropTarget_steady s).trans (count_steady _ _)

theorem servingGone_steady (s : State) : Steady s s.servingGone :=
  ((((raise_steady s _).trans (revert_steady _)).trans (link_steady _ _)).trans (dropServing_steady _)).trans
    (clearPersist_steady _)

theorem servingLoss_steady (s : State) : Steady s s.servingLoss :=
  (servingGone_steady s).trans (joinBest_steady _)

theorem barIfReleased_steady (s : State) : Steady s s.barIfReleased := by
  unfold State.barIfReleased
  split
  · split
    · exact barNode_steady s _
    · exact .refl s
  · exact .refl s

theorem promoteTarget_steady (s : State) : Steady s s.promoteTarget := by
  unfold State.promoteTarget
  dsimp only
  split
  · exact (modNeighbour_steady s _ _).trans (link_steady _ _)
  · exact link_steady _ _

theorem joinAccept_steady (s : State) : Steady s s.joinAccept :=
  ((((promoteTarget_steady s).trans (raise_steady _ _)).trans (clearReceive_steady _)).trans (fe_steady _ _)).trans
    (buildGrants_steady _ _)

theorem switch_steady (s : State) : Steady s s.switch :=
  ((((((dropServing_steady s).trans (promoteTarget_steady _)).trans (revert_steady _)).trans
    (clearReceive_steady _)).trans (buildGrants_steady _ _)).trans (raise_steady _ _)).trans (count_steady _ _)

theorem joinWait_steady (s : State) : Steady s s.joinWait :=
  .ite (.ite (joinDue_steady s) (setJoin_steady _ _)) (.refl s)

theorem backOff_steady (s : State) : Steady s s.backOff :=
  ((count_steady s _).trans (draw_steady _)).trans (setJoin_steady _ _)

theorem joinAdvance_steady (s : State) : Steady s s.joinAdvance :=
  .ite (.ite ((backOff_steady s).trans (joinWait_steady _)) ((failTarget_steady s).trans (joinBest_steady _)))
    (.ite (setJoin_steady _ _) (joinWait_steady s))

theorem joiningEnd_steady (s : State) : Steady s s.joiningEnd :=
  .ite (joinAccept_steady s) (.ite ((failTarget_steady s).trans (joinBest_steady _)) (joinAdvance_steady s))

theorem enterHandoff_steady (s : State) (node : Nat) : Steady s (s.enterHandoff node) :=
  ((chooseTarget_steady s node).trans (setLink_steady _ _)).trans (clearPersist_steady _)

theorem handoffTest_steady (s : State) : Steady s s.handoffTest := by
  unfold State.handoffTest
  split
  · exact .ite (.ite (enterHandoff_steady s _) (.of_core rfl)) (clearPersist_steady s)
  · exact clearPersist_steady s

theorem servedEnd_steady (s : State) : Steady s s.servedEnd :=
  (buildGrants_steady s _).trans
    (.ite ((barIfReleased_steady _).trans (servingLoss_steady _)) (handoffTest_steady _))

theorem handoffFail_steady (s : State) : Steady s s.handoffFail :=
  (((failTarget_steady s).trans (setLink_steady _ _)).trans (setJoin_steady _ _)).trans (clearPersist_steady _)

theorem handoffLoss_steady (s : State) : Steady s s.handoffLoss :=
  (((barIfReleased_steady s).trans (servingGone_steady _)).trans (setLink_steady _ _)).trans (setJoin_steady _ _)

theorem handoffEnd_steady (s : State) : Steady s s.handoffEnd :=
  .ite (switch_steady s) ((buildGrants_steady s _).trans
    (.ite ((handoffLoss_steady _).trans (joiningEnd_steady _))
      (.ite (handoffFail_steady _) (.ite (setJoin_steady _ _) (.refl _)))))

theorem phaseEnd_steady (s : State) : Steady s s.phaseEnd := by
  unfold State.phaseEnd
  split
  · exact .refl s
  · exact .refl s
  · dsimp only
    split
    · exact watchReference_steady
        (((noteBest_steady s).trans (chooseTarget_steady _ _)).trans (setLink_steady _ _))
    · exact noteBest_steady s
  · exact watchReference_steady ((noteBest_steady s).trans (joiningEnd_steady _))
  · exact watchReference_steady ((noteBest_steady s).trans (servedEnd_steady _))
  · exact watchReference_steady ((noteBest_steady s).trans (handoffEnd_steady _))

theorem timingLoss_steady (s : State) : Steady s s.timingLoss := by
  unfold State.timingLoss
  split
  · exact watchReference_steady (((raise_steady s _).trans (dropTarget_steady _)).trans (toSearch_steady _))
  · exact watchReference_steady ((servingGone_steady s).trans (toSearch_steady _))
  · exact watchReference_steady (((servingGone_steady s).trans (dropTarget_steady _)).trans (toSearch_steady _))
  all_goals exact .refl s

theorem lockLost_steady (s : State) : Steady s s.lockLost := by
  unfold State.lockLost
  dsimp only
  refine watchReference_steady ?_
  have tail : ∀ t : State, Steady s t → Steady s
      ({ t.revert.dropServing.dropTarget with link := { t.revert.dropServing.dropTarget.link with
          grants := [], join := JoinRequest.clear } } : State).clearPersist.enterStarting := fun t h =>
    (((((h.trans (revert_steady _)).trans (dropServing_steady _)).trans (dropTarget_steady _)).trans
      (link_steady _ _)).trans (clearPersist_steady _)).trans (enterStarting_steady _)
  split
  · exact tail _ (raise_steady s _)
  · exact tail _ (.refl s)

/-! ### The Frame Engine -/

theorem startFrame_steady (s : State) (b : List Byte) : Steady s (s.startFrame b) := .of_core rfl
theorem releaseTx_steady (s : State) : Steady s s.releaseTx := .of_core rfl
theorem endReception_steady (s : State) : Steady s s.endReception :=
  fe_steady s _ fun h => ⟨h.1, h.2.1, le_trans (Nat.le_add_right _ _) h.2.2⟩
theorem sendJoin_steady (s : State) : Steady s s.sendJoin := (startFrame_steady s _).trans (setJoin_steady _ _)
theorem receiveSeq_steady (s : State) (n : BitVec 8) : Steady s (s.receiveSeq n) := fe_steady s _

theorem recordFrame_steady (s : State) (l : List Entry) (r : SentFrame) (h : s.fe.sentInCycle < 16)
    (k : s.fe.sent.length < 32) : Steady s (s.recordFrame l r) :=
  fe_steady s _ fun ⟨_, _, c⟩ => ⟨by simp only [List.length_append, List.length_singleton]; omega, h, c⟩

theorem buildFrame_steady (s : State) (stay taken : List Entry) (node : Nat) (h1 : s.fe.sentInCycle < 16)
    (h2 : s.fe.sent.length < 32) (h3 : EntriesLaw s.journal.entries → EntriesLaw stay) :
    Steady s (s.buildFrame stay taken node) := by
  have e := moveAll_fe (s.setEntries stay) (fun _ => .inFlight) taken
  have h := ((((setEntries_steady s stay h3).trans (moveAll_steady _ (fun _ => .inFlight) taken)).trans
    (startFrame_steady _ (s.uplinkHeader taken.length node))).trans (count_steady _ .sent)).trans
    (recordFrame_steady _ taken
      { seq := s.fe.nextSeq, cycle := s.timer.cycle
        carried := (taken.filter Entry.acked).map fun e => (e.win, e.first) }
      (by simpa [State.startFrame, e] using h1) (by simpa [State.startFrame, e] using h2))
  exact .ite h (h.trans (backlogScan_steady _))

theorem selection_law (s : State) (h : EntriesLaw s.journal.entries) : EntriesLaw s.selection.1 := by
  unfold State.selection
  split
  · exact h
  · exact h.select _ _

theorem upSlot_steady (s : State) (node : Nat) : Steady s (s.upSlot node) := by
  unfold State.upSlot
  split
  · exact count_steady s _
  · rename_i h
    simp only [Config.framesPerCycle, Config.sentRoom, not_or, not_le] at h
    exact .ite (buildFrame_steady _ _ _ _ h.1 h.2 (selection_law s)) (.refl s)

theorem setSlot_steady (s : State) (l : Bool) (d : Option Nat) : Steady s (s.setSlot l d) := fe_steady s _

theorem joinIfDue_steady (s : State) (k : Nat) : Steady s (s.joinIfDue k) := .ite (sendJoin_steady s) (.refl s)

theorem useUp_steady (s : State) (k : Nat) : Steady s (s.useUp k) := by
  unfold State.useUp
  split
  · exact upSlot_steady s _
  · exact .refl s

theorem servedSlot_steady (s : State) (k : Nat) : Steady s (s.servedSlot k) :=
  (setSlot_steady s _ _).trans (useUp_steady _ k)

theorem beginSlot_steady (s : State) (k : Nat) : Steady s (s.beginSlot k) := by
  unfold State.beginSlot
  split
  · exact setSlot_steady s _ _
  · exact setSlot_steady s _ _
  · exact setSlot_steady s _ _
  · exact (setSlot_steady s _ _).trans (joinIfDue_steady _ k)
  · exact servedSlot_steady s k
  · exact (servedSlot_steady s k).trans (joinIfDue_steady _ k)

theorem readEnds_steady (s : State) (j : ReadJob) : Steady s (s.readEnds j) :=
  .ite ((Steady.modWin s j.win (·.mapGrans j.first j.last .settled) fun _ => rfl).trans (queueRun_steady _ _ _ _))
    (.refl s)

theorem readInto_steady (s : State) (j : ReadJob) : Steady s (s.readInto j) := by
  unfold State.readInto
  split
  · split
    · exact fe_steady s _
    · exact releaseTx_steady s
  · exact .refl s

theorem readRecord_steady (s : State) (j : ReadJob) (rest : List ReadJob) : Steady s (s.readRecord j rest) :=
  ((fe_steady s _).trans (readInto_steady _ j)).trans (readEnds_steady _ j)

theorem abandonReads_steady (s : State) : Steady s s.abandonReads := by
  unfold State.abandonReads
  dsimp only
  refine Steady.trans (Steady.of_core ?_ (j := ?_) (n := ?_) (f := ?_)) (.foldl _ (fun s j => readEnds_steady s j) _ _)
  all_goals split <;> first | rfl | exact id

theorem matchAck_steady (s : State) (a : AckEntry) : Steady s (s.matchAck a) :=
  (setSent_steady s (s.fe.sent.filter fun f => !a.acks f) (List.length_filter_le _ _)).trans
    (.foldl _ (fun s f => (acknowledge_steady s f).trans (count_steady _ _)) _ _)

theorem matchAcks_steady (s : State) (node : Nat) (acks : List AckEntry) : Steady s (s.matchAcks node acks) :=
  .ite (.foldl _ (fun s a => matchAck_steady s a) _ s) (.refl s)

theorem loseRecord_steady (s : State) (f : SentFrame) : Steady s (s.loseRecord f) :=
  ((setSent_steady s (s.fe.sent.filter fun x => decide (x ≠ f)) (List.length_filter_le _ _)).trans
    (loseFrame_steady _ f)).trans (count_steady _ _)

theorem loseLate_steady (s : State) : Steady s s.loseLate := .foldl _ (fun s f => loseRecord_steady s f) _ s

/-- A frame's records are held where a delivery buffer is left. -/
theorem holdRecords_steady {s t : State} (h : Steady s t) (l : List Delivery)
    (k : FramesLaw s.fe → t.fe.delivery.length < 2 ∧ t.fe.rx = none) : Steady s (t.holdRecords l) where
  stable := { h.stable with
    frames := fun f => by
      obtain ⟨a, b, _⟩ := h.stable.frames f
      obtain ⟨c, d⟩ := k f
      refine ⟨a, b, ?_⟩
      simp only [State.holdRecords, d, List.length_append, List.length_singleton, Option.isSome_none]
      simpa using c }
  pool := h.pool

/-- The frame being taken ends as a downlink frame: its buffer is the one the port had. -/
theorem takeDownlink_steady (s : State) (r r' : Reception) (d : Downlink) (h : s.fe.rx = some r') :
    Steady s (s.endReception.takeDownlink r d) := by
  have e := endReception_steady s
  have k : FramesLaw s.fe → s.fe.delivery.length < 2 := fun ⟨_, _, c⟩ => by rw [h] at c; simpa using c
  unfold State.takeDownlink
  dsimp only
  split
  · by_cases z : d.dest = 0
    · simp only [if_pos z]
      have g := e.trans (count_steady _ .downlinks)
      exact .ite g (holdRecords_steady g _ fun f => ⟨k f, rfl⟩)
    · simp only [if_neg z]
      have g := (e.trans (count_steady _ .downlinks)).trans (receiveSeq_steady _ d.seq)
      exact .ite g (holdRecords_steady g _ fun f => ⟨k f, rfl⟩)
  · exact e

/-! ### The Cycle Timer -/

/-- Changing the timer without its trim. -/
theorem setTimer_steady (s : State) (t : Timer) (h : t.trim = s.timer.trim := by rfl) : Steady s (s.setTimer t) :=
  .of_core (by simp [State.core, h])

theorem postCycle_steady (s : State) : Steady s s.postCycle := .of_core rfl
theorem postSlot_steady (s : State) (k e : Nat) : Steady s (s.postSlot k e) := .of_core rfl
theorem enterSlot_steady (s : State) (e : Nat) : Steady s (s.enterSlot e) := .ite (postSlot_steady s _ _) (.refl s)
theorem wrap_steady (s : State) : Steady s s.wrap := .ite (setTimer_steady s _) (postCycle_steady s)

theorem advance_steady (s : State) (n : Nat) : Steady s (s.advance n) := by
  unfold State.advance
  dsimp only
  refine Steady.trans ?_ (enterSlot_steady _ _)
  exact .ite ((setTimer_steady s _).trans (wrap_steady _)) (setTimer_steady s _)

theorem toBoundary_steady (s : State) : Steady s s.toBoundary := advance_steady s _

theorem stepForward_steady (s : State) (k : Nat) : Steady s (s.stepForward k) := by
  unfold State.stepForward
  dsimp only
  refine Steady.trans ?_ (enterSlot_steady _ _)
  exact .ite (((setTimer_steady s _).trans (setTimer_steady _ _)).trans (postCycle_steady _))
    (setTimer_steady s _)

theorem stepPhase_steady (s : State) (k : Int) : Steady s (s.stepPhase k) :=
  .ite (stepForward_steady s _) (setTimer_steady s _)

/-- A clamped trim is in range (R91, R96). -/
theorem clampTrim_range (t : Int) : -128 ≤ clampTrim t ∧ clampTrim t ≤ 127 := by
  unfold clampTrim; omega

/-- The trim of a fine correction ends in its range; the rest is steady. -/
theorem finishCorrect_steady (s : State) (e : Int) (c : Word) : Steady s (s.finishCorrect e c) := by
  have k : ∀ (w : Int) (tm : Timer), tm.trim = clampTrim w → Steady s (s.setTimer tm) := fun w tm e =>
    ⟨{ Stable.refl s with trim := fun _ => by simpa only [TrimLaw, State.setTimer_timer, e] using clampTrim_range w },
      rfl⟩
  exact .ite (k _ _ rfl) ((k _ _ rfl).trans (raise_steady _ _))

theorem realign_steady (s : State) (p : BitVec 40) (c : Word) : Steady s (s.realign p c) :=
  (setTimer_steady s _).trans (count_steady _ _)

theorem largeError_steady (s : State) (p : BitVec 40) (c : Word) : Steady s (s.largeError p c) :=
  .ite (realign_steady s p c) (setTimer_steady s _)

theorem coarseAlign_steady (s : State) (p : BitVec 40) (c : Word) : Steady s (s.coarseAlign p c) :=
  .ite (setTimer_steady s _) (.refl s)

theorem expireHoldover_steady (s : State) : Steady s s.expireHoldover :=
  (setTimer_steady s _).trans (timingLoss_steady _)

theorem holdoverTest_steady (s : State) : Steady s s.holdoverTest := by
  unfold State.holdoverTest
  dsimp only
  refine Steady.trans ?_ (setTimer_steady _ _)
  exact .ite (.refl s) (.ite (expireHoldover_steady s) (setTimer_steady s _))

/-! ### Shares of a timer event -/

theorem completeAtCycle_steady (s : State) (w : Work) (c : Word) : Steady s (s.completeAtCycle w c) :=
  .ite (complete_steady s _ _) (.refl s)

theorem placeTurn_steady (c : Word) (s : State) (n : WinNo) : Steady s (s.placeTurn c n) := by
  unfold State.placeTurn
  split
  · split
    · exact (goLive_steady s n).trans (completeAtCycle_steady _ _ _)
    · exact (purge_steady s n).trans (completeAtCycle_steady _ _ _)
    · exact .refl s
    · exact .refl s
  · exact .refl s

theorem windowsTurn_steady (s : State) (l : List WinNo) (c : Word) : Steady s (s.windowsTurn l c) :=
  .foldl _ (fun s n => placeTurn_steady c s n) _ s

theorem leaveDone_steady (s : State) : Steady s s.leaveDone :=
  .ite ((link_steady s _).trans (complete_steady _ _ _)) (link_steady s _)

theorem leaveNow_steady (s : State) : Steady s s.leaveNow := by
  unfold State.leaveNow
  have h : ∀ t, Steady s t → Steady s (s.watchReference t.revert.enterOff).leaveDone := fun t k =>
    (watchReference_steady ((k.trans (revert_steady _)).trans (enterOff_steady _))).trans (leaveDone_steady _)
  split
  · split
    · exact leaveDone_steady s
    · exact h _ (raise_steady s _)
    · exact h _ (raise_steady s _)
    all_goals exact h _ (.refl s)
  · exact .refl s

theorem turnLink_steady (s : State) : Steady s s.turnLink :=
  .of_core rfl (n := fun h => h.map _ fun _ => rfl)
    (f := fun h => ⟨h.1, Nat.zero_le _, by simpa [State.turnLink] using h.2.2⟩)

theorem linkTurn_steady (s : State) : Steady s s.linkTurn := (turnLink_steady s).trans (leaveNow_steady _)

theorem refreshTurn_steady (s : State) (n : WinNo) : Steady s (s.refreshTurn n) := by
  unfold State.refreshTurn
  split
  · rename_i w hw
    have hw := (win_of_liveWin hw).1
    have h : ∀ k, Steady s (s.setPlace n (some (w.setCountdown k))) := fun k => .setPlace hw rfl
    exact .ite (.ite ((h _).trans (changeAll_steady _ _ _)) (h _)) (.refl s)
  · exact .refl s

theorem servedTurn_steady (s : State) : Steady s s.servedTurn := .of_core rfl

theorem startingTurn_steady (s : State) : Steady s s.startingTurn := by
  unfold State.startingTurn
  dsimp only
  have h := (enterOff_steady s).trans (raise_steady _ .radioFault)
  exact .ite (.ite (h.trans (complete_steady _ _ _)) h) (.ite (link_steady s _) (.refl s))

theorem perform_steady (s : State) (d : Duty) : Steady s (s.perform d) := by
  cases d <;> simp only [State.perform]
  · exact windowsTurn_steady s _ _
  · exact linkTurn_steady s
  · exact ageJournal_steady s _
  · exact refreshTurn_steady s _
  · exact ageWindow_steady s _
  · exact ageStaging_steady s _
  · exact servedTurn_steady s
  · exact missNode_steady s _ _
  · exact startingTurn_steady s
  · exact phaseEnd_steady s
  · exact loseLate_steady s
  · exact holdoverTest_steady s
  · exact beginSlot_steady s _

theorem settle_steady (s : State) : Steady s s.settle :=
  (due_steady s ([])).trans (.foldl _ (fun s d => perform_steady s d) _ _)

theorem settleOnly_steady (s : State) (p : Duty → Bool) : Steady s (s.settleOnly p) :=
  (due_steady s (s.due.filter fun d => !p d)).trans (.foldl _ (fun s d => perform_steady s d) _ _)

theorem settleCycle_steady (s : State) : Steady s s.settleCycle := settleOnly_steady s _
theorem settleMisses_steady (s : State) : Steady s s.settleMisses := settleOnly_steady s _

/-- A tick is steady up to the arbiter's decision at its end. -/
theorem tick_steady (s : State) : ∃ t, Steady s t ∧ s.tick = t.arbitrate :=
  ⟨_, Steady.ite (.refl s) (((settle_steady s).trans (advance_steady _ 1)).trans (settle_steady _)), rfl⟩

/-- What a phase step with its events can do. -/
theorem stepAndSettle_steady (s : State) (k : Int) : Steady s (s.stepAndSettle k) :=
  .ite (stepPhase_steady s k) ((stepPhase_steady s k).trans (settle_steady _))

theorem fineCorrect_steady (s : State) (e : Int) (c : Word) : Steady s (s.fineCorrect e c) := by
  unfold State.fineCorrect
  exact ((setTimer_steady s _).trans (stepAndSettle_steady _ _)).trans (finishCorrect_steady _ e c)

theorem referenceBeacon_steady (s : State) (e : Int) (p : BitVec 40) (c : Word) :
    Steady s (s.referenceBeacon e p c) :=
  .ite (largeError_steady s p c) (fineCorrect_steady s e c)

theorem timeBeacon_steady (s : State) (node phase : Nat) (c : Word) (p : BitVec 40) :
    Steady s (s.timeBeacon node phase c p) :=
  .ite (referenceBeacon_steady s _ _ _) (coarseAlign_steady s _ _)

theorem toSlotStart_steady (s : State) : Steady s s.toSlotStart :=
  .ite (toBoundary_steady s) (((toBoundary_steady s).trans (settle_steady _)).trans (toBoundary_steady _))

/-- With no share due of those to take, nothing is taken. -/
theorem settleOnly_of_none {s : State} {p : Duty → Bool} (h : ∀ d ∈ s.due, p d = false) : s.settleOnly p = s := by
  have e : s.due.filter p = [] := List.filter_eq_nil_iff.2 fun d hd => by simp [h d hd]
  have k : s.due.filter (fun d => !p d) = s.due := List.filter_eq_self.2 fun d hd => by simp [h d hd]
  simp [State.settleOnly, e, k]

/-- With no share of a cycle-start event due there is none to take. -/
theorem settleCycle_of_slot {s : State} (h : ∀ d ∈ s.due, d.ofSlot = true) : s.settleCycle = s :=
  settleOnly_of_none fun d hd => by simp [Duty.ofCycle, h d hd]

/-- In a slot-start event whose cycle-start event is over, a share is taken in the state as it stands. -/
theorem inSlot_of_due {s : State} {d : Duty} (h : s.held = false) (k : d ∈ s.due)
    (l : ∀ x ∈ s.due, x.ofSlot = true) : s.inSlot = some s := by
  have e : s.slotDue = true := List.any_eq_true.2 ⟨d, k, l d k⟩
  simp [State.inSlot, h, e, settleCycle_of_slot l]

/-- In a beacon-phase end with no share of the cycle-start event and no miss left, a share is taken in the state as it
stands. -/
theorem inPhaseEnd_of_due {s : State} {d : Duty} (h : s.held = false) (k : d ∈ s.due)
    (l : ∀ x ∈ s.due, x.ofSlot = true) (m : ∀ x ∈ s.due, x.isMiss = false) : s.inPhaseEnd = some s := by
  simp [State.inPhaseEnd, inSlot_of_due h k l, State.settleMisses, settleOnly_of_none m]

/-- The state in which a share of a slot-start event is taken: the shares of the cycle-start event before it come
first (R93). -/
theorem inSlot_cases {s t : State} (h : s.inSlot = some t) :
    s.held = false ∧ (t = s.settleCycle ∨ (s.due = [] ∧ t = s.toSlotStart.settleCycle)) := by
  unfold State.inSlot at h
  by_cases hh : s.held = true
  · rw [if_pos hh] at h; cases h
  · rw [if_neg hh] at h
    refine ⟨by simpa using hh, ?_⟩
    by_cases hd : s.slotDue = true
    · rw [if_pos hd] at h; exact .inl (Option.some.inj h).symm
    · rw [if_neg hd] at h
      by_cases he : s.due = []
      · rw [if_pos he] at h; exact .inr ⟨he, (Option.some.inj h).symm⟩
      · rw [if_neg he] at h; cases h

/-- The state in which a share of a cycle-start event is taken. -/
theorem inCycle_cases {s t : State} (h : s.inCycle = some t) :
    s.held = false ∧ (t = s ∨ (s.wrapNext = true ∧ s.timer.suppress = false ∧ t = s.toBoundary)) := by
  unfold State.inCycle at h
  by_cases hh : s.held = true
  · rw [if_pos hh] at h; cases h
  · rw [if_neg hh] at h
    refine ⟨by simpa using hh, ?_⟩
    by_cases hd : s.cycleDue = true
    · rw [if_pos hd] at h; exact .inl (Option.some.inj h).symm
    · rw [if_neg hd] at h
      by_cases he : (s.wrapNext && !s.timer.suppress) = true
      · rw [if_pos he] at h
        rw [Bool.and_eq_true, Bool.not_eq_true'] at he
        exact .inr ⟨he.1, he.2, (Option.some.inj h).symm⟩
      · rw [if_neg he] at h; cases h

theorem inSlot_steady {s t : State} (h : s.inSlot = some t) : Steady s t := by
  obtain ⟨-, rfl | ⟨-, rfl⟩⟩ := inSlot_cases h
  · exact settleCycle_steady s
  · exact (toSlotStart_steady s).trans (settleCycle_steady _)

theorem inPhaseEnd_steady {s t : State} (h : s.inPhaseEnd = some t) : Steady s t := by
  obtain ⟨u, k, rfl⟩ := Option.map_eq_some_iff.1 h
  exact (inSlot_steady k).trans (settleMisses_steady u)

theorem inCycle_steady {s t : State} (h : s.inCycle = some t) : Steady s t := by
  obtain ⟨-, rfl | ⟨-, -, rfl⟩⟩ := inCycle_cases h
  · exact .refl _
  · exact toBoundary_steady s

theorem takeShare_steady (s : State) (start : Option State) (d : Duty) (p : State → Bool)
    (h : ∀ t, start = some t → Steady s t) : Steady s (s.takeShare start d p) := by
  unfold State.takeShare
  split
  · exact .ite ((h _ rfl).trans ((due_steady _ _).trans (perform_steady _ _))) (.refl s)
  · exact .refl s

end Sys2Proof.Machine

end
end

