-- ==== Sys2Proof/Laws/Lawful.lean ====
section
/-! SUPPORT. The operations that `Steady` does not cover (the Bus Tap, the Drain Engine, delivery, commands, resets and
start-up) keep the laws of the Bus Tap, the memories and the trim. -/

section

set_option Elab.async false


namespace Sys2Proof.Machine

variable {s t u : State}

/-- `t` obeys the laws of Safety.lean that speak of lists, memories and the trim where `s` does. -/
structure Lawful (s t : State) : Prop where
  tap : TapLaw s → TapLaw t
  memory : MemoryLaw s → MemoryLaw t
  trim : TrimLaw s → TrimLaw t
  journal : JournalLaw s → JournalLaw t
  neighbours : NeighbourLaw s → NeighbourLaw t
  frames : FrameLaw s → FrameLaw t

theorem Lawful.refl (s : State) : Lawful s s := ⟨id, id, id, id, id, id⟩

theorem Lawful.trans (h : Lawful s t) (k : Lawful t u) : Lawful s u :=
  ⟨k.tap ∘ h.tap, k.memory ∘ h.memory, k.trim ∘ h.trim, k.journal ∘ h.journal, k.neighbours ∘ h.neighbours,
    k.frames ∘ h.frames⟩

theorem Lawful.ite {c : Prop} [Decidable c] (h : Lawful s t) (k : Lawful s u) : Lawful s (if c then t else u) := by
  split <;> assumption

theorem Lawful.foldl {α : Type} (f : State → α → State) (h : ∀ s a, Lawful s (f s a)) (l : List α) (s : State) :
    Lawful s (l.foldl f s) := by
  induction l generalizing s with
  | nil => exact .refl s
  | cons a l ih => exact (h s a).trans (ih _)

theorem Stable.lawful (h : Stable s t) : Lawful s t where
  tap := by unfold TapLaw; rw [h.tap]; exact id
  memory := fun ⟨a, b, c⟩ => ⟨h.mem a, h.win0 ▸ b, h.store ▸ c⟩
  trim := h.trim
  journal := h.journal
  neighbours := h.neighbours
  frames := h.frames

theorem Steady.lawful (h : Steady s t) : Lawful s t := h.stable.lawful

/-- The parts of the state that the laws speak of. -/
def State.lawParts (s : State) :=
  (s.tap, s.pool.mem, s.win0.mem, s.store, s.timer.trim, s.journal.entries, s.link.table, s.fe)

theorem Lawful.of_parts (h : t.lawParts = s.lawParts) : Lawful s t := by
  simp only [State.lawParts, Prod.mk.injEq] at h
  obtain ⟨h1, h2, h3, h4, h5, h6, h7, h8⟩ := h
  refine ⟨?_, ?_, ?_, ?_, ?_, ?_⟩
  · unfold TapLaw; rw [h1]; exact id
  · unfold MemoryLaw; rw [h2, h3, h4]; exact id
  · unfold TrimLaw; rw [h5]; exact id
  · unfold JournalLaw; rw [h6]; exact id
  · unfold NeighbourLaw; rw [h7]; exact id
  · unfold FrameLaw; rw [h8]; exact id

/-- Only the Bus Tap's own state has changed. -/
theorem Lawful.of_tap (x : Tap) (h : TapLaw s → TapLaw { s with tap := x }) : Lawful s { s with tap := x } :=
  ⟨h, id, id, id, id, id⟩

/-- Only the pool's bytes have changed. -/
theorem Lawful.of_pool (x : Memory)
    (h : Memory.wf Config.imageDefault s.pool.mem = true → Memory.wf Config.imageDefault x = true) :
    Lawful s { s with pool := { s.pool with mem := x } } :=
  ⟨id, fun ⟨a, b, c⟩ => ⟨h a, b, c⟩, id, id, id, id⟩

/-- `Lawful`, with reset control, straps, bus, the free list, every place's granules and every definition as they
were. -/
structure Placed (s t : State) : Prop where
  lawful : Lawful s t
  rst : t.rst = s.rst
  straps : t.straps = s.straps
  bus : t.bus = s.bus
  free : t.pool.free = s.pool.free
  usable : t.pool.usable = s.pool.usable
  lots : ∀ n, t.lots n = s.lots n

theorem Placed.refl (s : State) : Placed s s := ⟨.refl s, rfl, rfl, rfl, rfl, rfl, fun _ => rfl⟩

theorem Placed.trans (h : Placed s t) (k : Placed t u) : Placed s u :=
  ⟨h.lawful.trans k.lawful, k.rst.trans h.rst, k.straps.trans h.straps, k.bus.trans h.bus, k.free.trans h.free, k.usable.trans h.usable,
    fun n => (k.lots n).trans (h.lots n)⟩

theorem Placed.ite {c : Prop} [Decidable c] (h : Placed s t) (k : Placed s u) : Placed s (if c then t else u) := by
  split <;> assumption

theorem Placed.foldl {α : Type} (f : State → α → State) (h : ∀ s a, Placed s (f s a)) (l : List α) (s : State) :
    Placed s (l.foldl f s) := by
  induction l generalizing s with
  | nil => exact .refl s
  | cons a l ih => exact (h s a).trans (ih _)

theorem Steady.placed (h : Steady s t) : Placed s t :=
  ⟨h.lawful, h.stable.rst, h.stable.straps, h.stable.bus, h.stable.free, h.stable.usable, h.stable.lots⟩

/-- Reset control, straps, bus, the places and the pool's lists are as they were. -/
theorem Lawful.placed (h : Lawful s t) (r : t.rst = s.rst := by rfl) (x : t.straps = s.straps := by rfl)
    (b : t.bus = s.bus := by rfl) (p : t.places = s.places := by rfl)
    (f : t.pool.free = s.pool.free := by rfl) (u : t.pool.usable = s.pool.usable := by rfl) : Placed s t :=
  ⟨h, r, x, b, f, u, fun n => by simp [State.lots, State.win, p]⟩

theorem Placed.setPlace {n : WinNo} {w w' : Window} (h : s.win n = some w) (k : w'.lot = w.lot) :
    Placed s (s.setPlace n (some w')) := (Steady.setPlace h k).placed

theorem Placed.modWin (s : State) (n : WinNo) (f : Window → Window) (h : ∀ w, (f w).lot = w.lot := by intro _; rfl) :
    Placed s (s.modWin n f) := (Steady.modWin s n f h).placed

/-! ### Images -/

theorem setImageByte_placed (s : State) (m : List Nat) (o : Nat) (b : Byte) : Placed s (s.setImageByte m o b) :=
  (Lawful.of_pool _ (Memory.wf_write _ _)).placed

theorem setGranule_placed (s : State) (m : List Nat) (g : Nat) (b : List Byte) : Placed s (s.setGranule m g b) :=
  (Lawful.of_pool _ (Memory.wf_writeAll _ _)).placed

/-- Clearing flags keeps a window's granules and definition. -/
theorem clearFlags_lot (w : Window) (second : Bool) (g : Nat) : (w.clearFlags second g).lot = w.lot := by
  unfold Window.clearFlags
  split
  · rfl
  · rfl
  · rfl
  · split <;> rfl

theorem clearGranule_placed (s : State) (c : ClearItem) : Placed s (s.clearGranule c) := by
  unfold State.clearGranule
  split
  · rename_i w hw
    exact (setGranule_placed s _ _ _).trans (.setPlace (w := w) hw (clearFlags_lot _ _ _))
  · exact .refl s

theorem fillGranule_placed (s : State) (g : Nat) (b : Byte) : Placed s (s.fillGranule g b) :=
  setGranule_placed s _ _ _

/-! ### Delivery -/

theorem wroteOne_steady (s : State) : Steady s s.wroteOne := fe_steady s _

theorem writePresent_placed (s : State) {n : WinNo} {w : Window} (h : s.win n = some w) (g : Nat) (b : List Byte) :
    Placed s (s.writePresent n w g b) :=
  ((setGranule_placed s _ _ _).trans (.setPlace (w := w) h (by rfl))).trans (wroteOne_steady _).placed

theorem writeStaged_placed (s : State) {n : WinNo} {w : Window} (h : s.win n = some w) (g : Nat) (b : List Byte) :
    Placed s (s.writeStaged n w g b) :=
  ((setGranule_placed s _ _ _).trans (.setPlace (w := w) h (by rfl))).trans (wroteOne_steady _).placed

theorem recordMove_placed (s : State) : Placed s s.recordMove := by
  unfold State.recordMove
  split
  · split
    · exact (recordDone_steady s).placed
    · rename_i w hw
      have hw := (win_of_liveWin hw).1
      split
      · split
        · exact writePresent_placed _ hw _ _
        · exact (Placed.setPlace (w' := w.applied _) hw rfl).trans (recordDone_steady _).placed
      · split
        · split
          · exact writeStaged_placed _ hw _ _
          · exact ((tryComplete_steady s _ _).trans (recordDone_steady _)).placed
        · exact (recordDone_steady s).placed
  · exact .refl s

theorem recordMoves_placed (k : Nat) (s : State) : Placed s (recordMoves k s) := by
  induction k generalizing s with
  | zero => exact .refl s
  | succ k ih =>
    unfold recordMoves
    exact .ite ((recordMove_placed s).trans (ih _)) (.refl s)

/-! ### The Bus Tap -/

/-- An insertion at a FIFO with room keeps the law of the Bus Tap, for a loss set that is empty or is emptied by it. -/
theorem insertEntry_tap (s : State) (e : FifoEntry) :
    (s.insertEntry e).tap =
      { s.tap with fifo := s.tap.fifo ++ [e], peak := max s.tap.peak (s.tap.fifo.length + 1) } := by
  unfold State.insertEntry
  dsimp only
  split <;> rfl

theorem capture_lawful (s : State) (n : WinNo) (c : BusCycle) : Lawful s (s.capture n c) := by
  unfold State.capture
  split
  · rename_i hroom
    refine ⟨?_, ?_, ?_, ?_, ?_, ?_⟩
    · rintro ⟨h1, h2, h3, h4⟩
      have hl : s.tap.loss = 0 := by
        by_contra hl
        have := h4 hl
        simp only [Config.fifoDepth] at hroom
        omega
      simp only [TapLaw, State.count_tap, insertEntry_tap, List.length_append, List.length_singleton]
      simp only [Config.fifoDepth] at hroom
      refine ⟨by omega, by omega, by omega, fun k => absurd hl k⟩
    all_goals
      unfold State.insertEntry
      dsimp only
      split <;> exact id
  · rename_i hfull
    refine ⟨?_, id, id, id, id, id⟩
    rintro ⟨h1, h2, h3, h4⟩
    simp only [Config.fifoDepth, not_lt] at hfull
    exact ⟨h1, h2, h3, fun _ => le_antisymm h1 hfull⟩

theorem capture_placed (s : State) (n : WinNo) (c : BusCycle) : Placed s (s.capture n c) := by
  have h := capture_lawful s n c
  unfold State.capture State.insertEntry at h ⊢
  dsimp only at h ⊢
  by_cases k : s.tap.fifo.length < Config.fifoDepth
  · simp only [if_pos k] at h ⊢
    by_cases m : s.tap.fifo.length + 1 = Config.fifoNear
    · simp only [if_pos m] at h ⊢
      exact h.placed
    · simp only [if_neg m] at h ⊢
      exact h.placed
  · simp only [if_neg k] at h ⊢
    exact h.placed

theorem writeIn_placed (s : State) (c : BusCycle) (n : WinNo) (o : Nat) : Placed s (s.writeIn c n o) := by
  unfold State.writeIn
  split
  · exact capture_placed s _ _
  · split
    · exact .refl s
    · rename_i w hw
      split
      · exact capture_placed s _ _
      · exact .ite (capture_placed s _ _) (.refl s)
      · exact .ite (.setPlace (w := w) (win_of_liveWin hw).1 (by rfl)) (.refl s)

theorem writeAt_placed (s : State) (c : BusCycle) (m : Option (WinNo × Nat)) : Placed s (s.writeAt c m) := by
  unfold State.writeAt
  split
  · exact .refl s
  · exact writeIn_placed s c _ _

theorem tapWrite_placed (s : State) (c : BusCycle) : Placed s (s.tapWrite c) := writeAt_placed s c _

theorem setBus_lawful (s : State) (b : BusPins) : Lawful s (s.setBus b) := .of_parts rfl

theorem setLearn_placed (s : State) (r : Option LearnRequest) : Placed s (s.setLearn r) :=
  Lawful.placed ⟨id, id, id, id, id, id⟩

theorem learn_placed (s : State) (c : BusCycle) : Placed s (s.learn c) := .ite (.refl s) (setLearn_placed s _)

/-! ### The Drain Engine -/

theorem parityErrors_steady (s : State) (n : Nat) : Steady s (s.parityErrors n) :=
  .ite (.refl s) ((raise_steady s _).trans (countN_steady _ _ _))

theorem shadowSet_placed (s : State) {n : WinNo} {w : Window} (h : s.win n = some w) (o : Nat) (b : Byte) :
    Placed s (s.shadowSet n w o b) :=
  (setImageByte_placed s _ _ _).trans (.setPlace (w := w) h (by rfl))

theorem shadowLane_placed (n : WinNo) (o : Nat) (s : State) (l : Nat × Byte × Bool) :
    Placed s (shadowLane n o s l) := by
  unfold shadowLane
  split
  · rename_i w hw
    exact .ite (shadowSet_placed s hw _ _) (.setPlace (w := w) hw (by rfl))
  · exact .refl s

theorem modPub_placed (s : State) (n : WinNo) (f : Publication → Publication) : Placed s (s.modPub n f) :=
  .modWin s _ _

theorem newRevision_placed (s : State) (n : WinNo) : Placed s (s.newRevision n) := modPub_placed s n _

theorem copyGranule_placed (n : WinNo) (s : State) (g : Nat) : Placed s (copyGranule n s g) := by
  unfold copyGranule
  split
  · rename_i w hw
    exact .ite (((setGranule_placed s _ _ _).trans (.setPlace (w := w) hw (by rfl))).trans (change_steady _ _ _).placed) (.refl s)
  · exact .refl s

theorem triggerCopy_placed (s : State) (n : WinNo) (w : Window) : Placed s (s.triggerCopy n w) :=
  (Placed.foldl _ (copyGranule_placed n) _ s).trans (newRevision_placed _ n)

theorem wroteShadow_placed (s : State) (n : WinNo) (g : Nat) (a b : Bool) : Placed s (s.wroteShadow n g a b) := by
  unfold State.wroteShadow
  dsimp only
  have h : Placed s (if a = true then s.newRevision n else s) := .ite (newRevision_placed s n) (.refl s)
  exact .ite h (h.trans (change_steady _ _ _).placed)

theorem writePublish_placed (s : State) (n : WinNo) (w : Window) (c : Captured) (k : Option (WinNo × Nat)) :
    Placed s (s.writePublish n w c k) := by
  unfold State.writePublish
  dsimp only
  have h := (Placed.foldl _ (shadowLane_placed n (w.offsetOf c.addr)) c.lanes s).trans
    (parityErrors_steady _ c.badLanes).placed
  split
  · exact h.trans (wroteShadow_placed _ _ _ _ _)
  · exact .ite ((h.trans (modPub_placed _ _ _)).trans (triggerCopy_placed _ _ _)) (h.trans (modPub_placed _ _ _))
  · exact h

theorem commandWrite_steady (s : State) (v : Word) (b : Bool) : Steady s (s.commandWrite v b) := by
  have ready : ∀ t : State, Steady t (t.readyWrite v b) := fun t =>
    .ite (completeAs_steady t _ _ _) (.ite (.refl t) (.of_core rfl))
  unfold State.commandWrite
  split
  · exact ready s
  · exact .ite (.of_core rfl) (.refl s)
  · exact (Steady.of_core (t := s.ackResult) (s := s) rfl).trans (ready _)
  · exact (Steady.of_core (t := s.ackResult) (s := s) rfl).trans (ready _)

theorem lostWrite_steady (s : State) : Steady s s.lostWrite := by
  unfold State.lostWrite
  split
  · exact completeAs_steady s _ _ _
  · exact .of_core rfl
  · exact (Steady.of_core (t := s.ackResult) (s := s) rfl).trans (completeAs_steady _ _ _ _)
  · exact (Steady.of_core (t := s.ackResult) (s := s) rfl).trans (completeAs_steady _ _ _ _)

theorem win0Lane_wf (o : Nat) (l : List (Nat × Byte × Bool)) {m : Memory}
    (h : Memory.wf Config.imageDefault m = true) :
    Memory.wf Config.imageDefault (l.foldl (win0Lane o) m) = true := by
  induction l generalizing m with
  | nil => exact h
  | cons a l ih => exact ih (Memory.wf_write _ _ h)

theorem win0Entry_placed (s : State) (c : Captured) (o : Nat) : Placed s (s.win0Entry c o) := by
  have w : ∀ o, Placed s (s.writeWin0 o c) := fun o =>
    Placed.trans (t := { s with win0 := { s.win0 with
        mem := c.lanes.foldl (win0Lane o) s.win0.mem
        bad := if 0 < c.badLanes then s.win0.bad.set (o / 2) true else s.win0.bad } })
      (Lawful.placed ⟨id, fun ⟨a, b, d⟩ => ⟨a, win0Lane_wf o _ b, d⟩, id, id, id, id⟩) (parityErrors_steady _ _).placed
  exact .ite ((w _).trans (commandWrite_steady _ _ _).placed) (w _)

theorem applyWin0_placed (s : State) (c : Captured) : Placed s (s.applyWin0 c) := win0Entry_placed s c _

theorem alertClear_placed (s : State) (c : Captured) : Placed s (s.alertClear c) :=
  (Lawful.of_parts (s := s)
    (t := { s with status := { s.status with pending := s.status.pending &&& ~~~c.clearBits } }) rfl).placed.trans
    (parityErrors_steady _ _).placed

theorem applyWrite_placed (s : State) (c : Captured) (k : Option (WinNo × Nat)) : Placed s (s.applyWrite c k) := by
  unfold State.applyWrite
  split
  · exact applyWin0_placed s c
  · split
    · exact .refl s
    · split
      · exact .refl s
      · split
        · exact writePublish_placed _ _ _ _ _
        · exact .ite (alertClear_placed s c) (.refl s)
        · exact .refl s

theorem loseShadow_placed (s : State) (n : WinNo) (w : Window) : Placed s (s.loseShadow n w) := by
  unfold State.loseShadow
  dsimp only
  split
  · exact (modPub_placed _ _ _).trans (changeAll_steady _ _ _).placed
  · exact (modPub_placed _ _ _).trans (modPub_placed _ _ _)

theorem lossWindow_placed (x : BitVec 32) (s : State) (n : WinNo) : Placed s (lossWindow x s n) := by
  unfold lossWindow
  split
  · split
    · exact (lostWrite_steady s).placed
    · split
      · exact .ite (loseShadow_placed s _ _) (.refl s)
      · exact .refl s
  · exact .refl s

theorem learnLane_placed (n : WinNo) (o : Nat) (s : State) (l : Nat × Byte) : Placed s (learnLane n o s l) := by
  unfold learnLane
  split
  · rename_i w hw
    exact .ite (.refl s) ((shadowSet_placed s hw _ _).trans (count_steady _ _).placed)
  · exact .refl s

theorem filledChange_placed (s : State) (n : WinNo) (w : Window) (g : Nat) : Placed s (s.filledChange n w g).1 := by
  unfold State.filledChange
  split
  · exact (change_steady s n g).placed
  · exact .refl s

theorem applyLearn_placed (s : State) (r : LearnRequest) : Placed s (s.applyLearn r).1 := by
  unfold State.applyLearn
  split
  · split
    · exact (Placed.foldl _ (learnLane_placed _ _) _ s).trans (filledChange_placed _ _ _ _)
    · exact .refl s
  · exact .refl s

theorem applyTaken_placed (s : State) (d : DrainStep) : Placed s (s.applyTaken d).1 := by
  unfold State.applyTaken
  split
  · exact applyLearn_placed s _
  · exact .refl s

/-- The head leaves and a LOSS entry may fill its place. -/
theorem dropHead_lawful (s : State) : Lawful s s.dropHead := by
  refine ⟨?_, ?_, ?_, ?_, ?_, ?_⟩
  · rintro ⟨h1, h2, h3, h4⟩
    unfold State.dropHead State.insertLoss
    dsimp only
    by_cases hl : s.tap.loss = 0
    · rw [if_pos (by simpa using hl)]
      simp only [TapLaw, State.modAll_tap, List.length_tail]
      exact ⟨by omega, by omega, h3, fun k => absurd hl k⟩
    · rw [if_neg (by simpa using hl)]
      have h5 := h4 hl
      simp only [TapLaw, State.count_tap, insertEntry_tap, State.modAll_tap, List.length_append, List.length_tail,
        List.length_singleton]
      exact ⟨by omega, by omega, by omega, fun k => absurd rfl k⟩
  all_goals
    unfold State.dropHead State.insertLoss State.insertEntry
    dsimp only
    split
    · exact id
    · split <;> exact id

theorem dropHead_placed (s : State) : Placed s s.dropHead := by
  have m : ∀ t : State, (t.modAll fun w => { w with fence := w.fence - 1 }).lots = t.lots := fun t => by
    funext n
    cases hw : t.win n with
    | none => simp [State.lots, hw]
    | some w => simp [State.lots, hw]; rfl
  refine ⟨dropHead_lawful s, ?_, ?_, ?_, ?_, ?_, fun n => ?_⟩
  · unfold State.dropHead State.insertLoss State.insertEntry
    dsimp only
    split
    · rfl
    · split <;> rfl
  · unfold State.dropHead State.insertLoss State.insertEntry
    dsimp only
    split
    · rfl
    · split <;> rfl
  · unfold State.dropHead State.insertLoss State.insertEntry
    dsimp only
    split
    · rfl
    · split <;> rfl
  · unfold State.dropHead State.insertLoss State.insertEntry
    dsimp only
    split
    · rfl
    · split <;> rfl
  · unfold State.dropHead State.insertLoss State.insertEntry
    dsimp only
    split
    · rfl
    · split <;> rfl
  · unfold State.dropHead State.insertLoss State.insertEntry
    dsimp only
    split
    · exact congrFun (m _) n
    · split <;> exact congrFun (m _) n

theorem applyEntry_placed (s : State) (e : FifoEntry) (k : Option (WinNo × Nat)) : Placed s (s.applyEntry e k) := by
  unfold State.applyEntry
  split
  · exact applyWrite_placed s _ k
  · exact .foldl _ (lossWindow_placed _) _ s

theorem drainHead_placed (s : State) (k : Option (WinNo × Nat)) : Placed s (s.drainHead k) := by
  unfold State.drainHead
  split
  · exact (applyEntry_placed _ _ _).trans (dropHead_placed _)
  · exact .refl s

theorem drain_placed (s : State) (d : DrainStep) : Placed s (s.drain d) := by
  have h := (endGrant_steady s).placed.trans (applyTaken_placed _ d)
  exact .ite (h.trans (drainHead_placed _ _)) h

/-! ### The arbiter -/

/-- The arbiter keeps the laws: of the Bus Tap's state it can empty the learning slot alone (R38, R39). -/
theorem arbitrate_placed (s : State) : Placed s s.arbitrate := by
  obtain ⟨r, o, l, h⟩ := s.arbitrate_eq
  rw [h]
  exact Lawful.placed ⟨id, id, id, id, id, id⟩

theorem tick_placed (s : State) : Placed s s.tick := by
  obtain ⟨t, h, e⟩ := tick_steady s
  rw [e]
  exact h.placed.trans (arbitrate_placed t)

theorem ticks_placed (n : Nat) (s : State) : Placed s (ticks n s) := by
  induction n generalizing s with
  | zero => exact .refl s
  | succ n ih => exact (tick_placed s).trans (ih _)

/-! ### Commands -/

theorem takeSnapshot_placed (s : State) : Placed s s.takeSnapshot := Lawful.placed (.of_parts rfl)

/-- A requester comes to the port, granted to it, in the state that the end of a snapshot under way leaves (R37, R38,
R146, R148). -/
theorem portFor_some {r : Requester} (h : s.portFor r = some t) :
    t.port.map PortGrant.requester = some r ∧ t = if s.snapshotGranted then s.endSnapshot.arbitrate else s := by
  unfold State.portFor at h
  dsimp only at h
  generalize (if s.snapshotGranted = true then s.endSnapshot.arbitrate else s) = u at h ⊢
  by_cases k : u.port.map PortGrant.requester = some r
  · rw [if_pos k] at h
    cases h
    exact ⟨k, rfl⟩
  · rw [if_neg k] at h
    cases h

/-- The codes of the commands are distinct, so each finds its own entry. -/
theorem actOnCommand_eq {a : Word × (State → State)} (h : a ∈ commandActs) (k : s.mbox.code = a.1) :
    s.actOnCommand = a.2 s := by
  unfold State.actOnCommand
  rw [k]
  revert k
  simp only [commandActs, List.mem_cons, List.not_mem_nil, or_false] at h
  rcases h with h | h | h | h | h | h | h | h | h | h | h | h | h | h | h | h | h | h | h <;> subst h <;> intro _ <;> rfl

/-- A code that names no command (R147). -/
theorem actOnCommand_unknown (h : commandCodes.contains s.mbox.code = false) :
    s.actOnCommand = s.complete .unknownCommand [] := by
  have e : (commandActs.find? fun a => decide (a.1 = s.mbox.code)) = none := by
    rw [List.find?_eq_none]
    intro a ha k
    have m : s.mbox.code ∈ commandCodes := by
      rw [← of_decide_eq_true k]
      exact List.mem_map_of_mem (f := Prod.fst) ha
    rw [List.contains_iff_mem.2 m] at h
    cases h
  simp only [State.actOnCommand, e]

/-- What the end of a snapshot that another unit's row ends does: the command's whole act, but for a DISW that passes its
checks (R146 to R148). -/
theorem endSnapshot_cases (s : State) :
    s.endSnapshot = s.takeSnapshot.actOnCommand ∨
      s.endSnapshot = s.takeSnapshot ∧ s.mbox.code = codeDISW ∧ s.takeSnapshot.actOnCommand.mbox.state = .busy := by
  unfold State.endSnapshot
  dsimp only
  by_cases h : s.takeSnapshot.mbox.code = codeDISW ∧ s.takeSnapshot.actOnCommand.mbox.state = .busy
  · rw [if_pos h]; exact .inr ⟨rfl, h⟩
  · rw [if_neg h]; exact .inl rfl

/-- A command carried out at the end of its snapshot keeps what its own act keeps. -/
theorem actOnCommand_of {P : State → Prop} (u : ∀ r d, P (s.complete r d)) (h : ∀ a ∈ commandActs, P (a.2 s)) :
    P s.actOnCommand := by
  unfold State.actOnCommand
  split
  · exact h _ (List.mem_of_find?_eq_some ‹_›)
  · exact u _ _

/-- A command comes to its checks as it was, or with its snapshot taken (R146, R147). -/
theorem atChecks_cases (h : s.atChecks = some t) :
    (s.snapshotGranted = true ∧ t = s.takeSnapshot) ∨ (s.mbox.state = .busy ∧ s.mbox.work = .checks ∧ t = s) := by
  unfold State.atChecks at h
  split at h
  · cases h; exact .inl ⟨‹_›, rfl⟩
  · split at h
    · rename_i k
      cases h; exact .inr ⟨k.1, k.2, rfl⟩
    · cases h

/-- What a command's row can do: nothing, or its effect on the command at its checks. -/
theorem onCommand_cases (s : State) (names : State → Bool) (f : State → State) :
    s.onCommand names f = s ∨ ∃ t, s.atChecks = some t ∧ names t = true ∧ s.onCommand names f = f t := by
  unfold State.onCommand
  split
  · rename_i t h
    by_cases k : names t = true
    · exact .inr ⟨t, h, k, by rw [if_pos k]⟩
    · exact .inl (by rw [if_neg k])
  · exact .inl rfl

theorem onCommand_placed (s : State) (names : State → Bool) (f : State → State) (h : ∀ t, Placed t (f t)) :
    Placed s (s.onCommand names f) := by
  obtain e | ⟨t, ht, -, e⟩ := onCommand_cases s names f
  · rw [e]; exact .refl s
  · rw [e]
    obtain ⟨-, rfl⟩ | ⟨-, -, rfl⟩ := atChecks_cases ht
    · exact (takeSnapshot_placed s).trans (h _)
    · exact h _

theorem checkWords_placed (s : State) (words : Nat) (body : State → State) (h : ∀ t, Placed t (body t)) :
    Placed s (s.checkWords words body) := by
  unfold State.checkWords
  split
  · exact (complete_steady _ _ _).placed
  · exact h _

theorem runCommand_placed (s : State) (code : Word) (words : Nat) (body : State → State)
    (h : ∀ t, Placed t (body t)) : Placed s (s.runCommand code words body) :=
  onCommand_placed s _ _ fun t => checkWords_placed t words body h

/-- A command's own row and the end of a snapshot that another row ends do the same to a command at its checks. -/
theorem runCommand_acts {code : Word} {words : Nat} {body : State → State}
    (h : (code, fun s : State => s.checkWords words body) ∈ commandActs) (k : s.atChecks = some t)
    (c : t.mbox.code = code) : s.runCommand code words body = t.actOnCommand := by
  unfold State.runCommand State.onCommand
  rw [actOnCommand_eq h c]
  simp only [k]
  rw [if_pos (by simpa using c)]

theorem install_lawful (s : State) (n : WinNo) (d : Definition) : Lawful s (s.install n d) := .of_parts rfl

theorem freePlace_lawful (s : State) (n : WinNo) : Lawful s (s.freePlace n) := .of_parts rfl

theorem freeAll_lawful (s : State) : Lawful s s.freeAll := .foldl _ freePlace_lawful _ s

theorem awaitClearing_steady (s : State) (l : List ClearItem) (d : List Byte) : Steady s (s.awaitClearing l d) :=
  .ite (complete_steady s _ _) (await_steady s _)

theorem applyProfile_placed (s : State) (p : Profile) : Placed s (s.applyProfile p) := Lawful.placed (.of_parts rfl)

theorem installOne_lawful (s : State) (r : RawDefn) : Lawful s (s.installOne r) := by
  unfold State.installOne
  split
  · exact install_lawful _ _ _
  · exact .refl s

theorem installAll_lawful (s : State) (l : List RawDefn) : Lawful s (s.installAll l) :=
  .foldl _ installOne_lawful _ s

theorem clearGroups_placed (s : State) : Placed s s.clearGroups := Lawful.placed (.of_parts rfl)

theorem loadProfile_lawful (s : State) (p : Profile) : Lawful s (s.loadProfile p) := by
  unfold State.loadProfile
  dsimp only
  exact ((((freeAll_lawful s).trans (clearGroups_placed _).lawful).trans (applyProfile_placed _ p).lawful).trans
    (installAll_lawful _ _)).trans (awaitClearing_steady _ _ _).lawful

/-- A store written from erased bytes is canonical. -/
theorem ofBytes_wf (b : List Byte) : (Store.ofBytes b).wf = true := Memory.wf_writeAll b 0 rfl

theorem endWrite_lawful (s : State) (a b : List Byte) : Lawful s (s.endWrite a b) := by
  have h : Lawful s { s with store := Store.ofBytes b } := ⟨id, fun ⟨x, y, _⟩ => ⟨x, y, ofBytes_wf b⟩, id, id, id, id⟩
  unfold State.endWrite
  dsimp only
  split
  · exact (h.trans (.of_parts (t := { s with store := Store.ofBytes b, status := { s.status with store := .valid } })
      rfl)).trans (complete_steady _ _ _).lawful
  · exact h.trans (complete_steady _ _ _).lawful

/-! ### Resets and start-up -/

/-- A write cut short leaves the store as it was, torn, or whole (R170). -/
theorem cutStore_cases (s : State) (p : List Byte) :
    s.cutStore p = s.store ∨ s.cutStore p = .torn ∨ s.cutStore p = Store.ofBytes p := by
  unfold State.cutStore
  split
  · exact .inl rfl
  · exact .inr (.inl rfl)
  · exact .inr (.inr rfl)

theorem cutWrite_placed (s : State) (p : List Byte) : Placed s (s.cutWrite p) := by
  refine Lawful.placed ⟨id, fun ⟨a, b, c⟩ => ⟨a, b, ?_⟩, id, id, id, id⟩
  obtain e | e | e := cutStore_cases s p
  · simpa only [State.cutWrite, e] using c
  · simp only [State.cutWrite, e]; rfl
  · simp only [State.cutWrite, e]; exact ofBytes_wf p

theorem stopWrite_placed (s : State) : Placed s s.stopWrite := by
  unfold State.stopWrite
  split
  · exact cutWrite_placed s _
  · exact .refl s

/-- The memories at the start of a reset kind (R20). -/
theorem beginReset_memories (s : State) (k : ResetKind) :
    (s.beginReset k).pool = s.stopWrite.freeAll.pool ∧ (s.beginReset k).win0 = s.stopWrite.freeAll.win0 ∧
      (s.beginReset k).store = s.stopWrite.freeAll.store := by
  unfold State.beginReset
  generalize s.stopWrite.freeAll = u
  exact ⟨rfl, rfl, rfl⟩

theorem beginReset_lawful (s : State) (k : ResetKind) : Lawful s (s.beginReset k) where
  tap := fun _ => by unfold TapLaw State.beginReset Tap.reset; simp
  memory := fun h => by
    obtain ⟨e1, e2, e3⟩ := beginReset_memories s k
    unfold MemoryLaw
    rw [e1, e2, e3]
    exact ((stopWrite_placed s).lawful.trans (freeAll_lawful _)).memory h
  trim := fun _ => by unfold TrimLaw State.beginReset Timer.reset; simp
  journal := fun _ => by unfold JournalLaw State.beginReset Journal.reset; simp [EntriesLaw]
  neighbours := fun _ => by unfold NeighbourLaw State.beginReset Link.reset; simp [NodesLaw]
  frames := fun _ => by unfold FrameLaw State.beginReset FrameEngine.reset; simp [FramesLaw]

theorem zeroAll_lawful (s : State) : Lawful s s.zeroAll := ⟨id, fun ⟨_, _, c⟩ => ⟨rfl, rfl, c⟩, id, id, id, id⟩

theorem noteStore_placed (s : State) (c : StoreCondition) : Placed s (s.noteStore c) :=
  Lawful.placed (.of_parts rfl)

theorem readProfile_lawful (s : State) : Lawful s s.readProfile :=
  ((applyProfile_placed s _).lawful.trans (noteStore_placed _ _).lawful).trans (installAll_lawful _ _)

theorem startWindows_steady (s : State) : Steady s s.startWindows := .foldl _ goLive_steady _ s

theorem autoJoinNow_steady (s : State) : Steady s s.autoJoinNow := .ite (enterStarting_steady s) (.refl s)

theorem setRst_lawful (s : State) (r : ResetUnit) : Lawful s (s.setRst r) := .of_parts rfl

theorem newPool_lawful (s : State) : Lawful s s.newPool where
  tap := by simp only [TapLaw, State.newPool]; exact id
  memory := by simp only [MemoryLaw, State.newPool]; exact id
  trim := by simp only [TrimLaw, State.newPool]; exact id
  journal := by simp only [JournalLaw, State.newPool]; exact id
  neighbours := by simp only [NeighbourLaw, State.newPool]; exact id
  frames := by simp only [FrameLaw, State.newPool]; exact id

theorem testOutcome_lawful (s : State) (b : Bool) : Lawful s (s.testOutcome b) := ⟨id, id, id, id, id, id⟩

theorem setStrapPins_lawful (s : State) (st : Straps) : Lawful s (s.setStrapPins st) := ⟨id, id, id, id, id, id⟩

theorem release_lawful (s : State) : Lawful s s.release := ⟨id, id, id, id, id, id⟩

theorem afterPins_lawful (s : State) (r : ResetUnit) : Lawful s (s.afterPins r) := by
  unfold State.afterPins
  dsimp only
  split
  · exact setRst_lawful s r
  · exact (setRst_lawful s r).trans (release_lawful _)

theorem endStartUp_lawful (s : State) : Lawful s s.endStartUp := by
  have h := setRst_lawful s { s.rst with phase := .running }
  exact .ite (h.trans (completeAs_steady _ _ _ _).lawful) h

theorem finishStartUp_lawful (s : State) : Lawful s s.finishStartUp :=
  ((((zeroAll_lawful s).trans (readProfile_lawful _)).trans (startWindows_steady _).lawful).trans
    (autoJoinNow_steady _).lawful).trans (endStartUp_lawful _)

/-! ### Beacons, delimiters and LOCK -/

/-- A delimiter is taken only where a delivery buffer is left. -/
theorem sampleDelimiter_steady (s : State) (l : Byte) : Steady s (s.sampleDelimiter l) := by
  unfold State.sampleDelimiter
  split
  · rename_i h
    simp only [State.takesDelimiter, Config.deliveryRoom, Bool.and_eq_true, decide_eq_true_eq] at h
    refine fe_steady s _ fun ⟨a, b, _⟩ => ⟨a, b, ?_⟩
    simp only [Option.isSome_some, if_true]
    omega
  · exact .refl s

theorem lockHigh_steady (s : State) : Steady s s.lockHigh := link_steady s _

theorem lockUp_steady (s : State) : Steady s s.lockUp := by
  unfold State.lockUp
  dsimp only
  split
  · exact ((toSearch_steady s).trans (link_steady _ _)).trans (complete_steady _ _ _)
  · exact toSearch_steady s

theorem takeBeacon_steady (s : State) (r : Reception) (b : Beacon) : Steady s (s.takeBeacon r b) :=
  (((scoreBeacon_steady s _ _ _ _ _ _).trans (keepBeacon_steady _ _ _)).trans (matchAcks_steady _ _ _)).trans
    (timeBeacon_steady _ _ _ _ _)

end Sys2Proof.Machine

end
end

