-- ==== Sys2Proof/Laws/Places.lean ====
section
/-! SUPPORT. The places and the pool's free list: freeing and installing move granules between a place and the free list,
and every other operation leaves both as they were (R26 to R28, R34, R36). -/

section

set_option Elab.async false


namespace Sys2Proof.Machine

variable {s t : State}

/-! ### What `Placed` keeps -/

theorem heldBy_eq_lots (s : State) (n : WinNo) : s.heldBy n = ((s.lots n).map Prod.fst).getD [] := by
  cases h : s.win n <;> simp [State.heldBy, State.lots, h, Window.lot]

theorem win_none_iff (s : State) (n : WinNo) : s.win n = none ↔ s.lots n = none := by
  cases h : s.win n <;> simp [State.lots, h]

theorem Placed.win_none (h : Placed s t) (n : WinNo) : t.win n = none ↔ s.win n = none := by
  rw [win_none_iff, win_none_iff, h.lots n]

theorem Placed.running (h : Placed s t) : t.running = s.running := by
  simp only [State.running, State.held, h.rst]

theorem Placed.heldGranules (h : Placed s t) : t.heldGranules = s.heldGranules := by
  unfold State.heldGranules
  congr 1
  funext n
  rw [heldBy_eq_lots, heldBy_eq_lots, h.lots n]

theorem Placed.table (h : Placed s t) (k : TableLaw s) : TableLaw t :=
  ⟨(h.win_none 0).2 k.1, fun r n => (h.win_none n).2 (k.2 (h.running ▸ r) n)⟩

theorem Placed.poolLaw (h : Placed s t) (k : PoolLaw s) : PoolLaw t := by
  unfold PoolLaw
  rw [h.free, h.usable, h.heldGranules]
  exact k

/-! ### Freeing and installing -/

theorem places_nodup : places1to31.Nodup := by decide

theorem mem_places {n : WinNo} (h : n ≠ 0) : n ∈ places1to31 := by
  revert n
  decide

/-- One place's granules and the rest of the granules that places hold, when only that place has changed. -/
theorem flatMap_one {f g : WinNo → List Nat} {n : WinNo} {l : List WinNo} (nd : l.Nodup) (m : n ∈ l)
    (h : ∀ k, k ≠ n → g k = f k) : ∃ r : List Nat, (l.flatMap f).Perm (f n ++ r) ∧ (l.flatMap g).Perm (g n ++ r) := by
  refine ⟨(l.erase n).flatMap f, ?_, ?_⟩
  · exact ((List.perm_cons_erase m).flatMap_right f).trans (by simp)
  · have e : (l.erase n).flatMap g = (l.erase n).flatMap f := by
      refine List.flatMap_congr fun k hk => h k ?_
      intro e
      exact (nd.mem_erase_iff.1 hk).1 e
    rw [← e]
    exact ((List.perm_cons_erase m).flatMap_right g).trans (by simp)

theorem win_freePlace_ne (s : State) (n m : WinNo) (h : m ≠ n) : (s.freePlace n).win m = s.win m := by
  simp [State.win, State.freePlace, Fin.val_ne_of_ne h.symm]

theorem win_freePlace (s : State) (n : WinNo) : (s.freePlace n).win n = none := by
  simp [State.win, State.freePlace]

theorem win_install_ne (s : State) (n m : WinNo) (d : Definition) (h : m ≠ n) : (s.install n d).win m = s.win m := by
  simp [State.win, State.install, Fin.val_ne_of_ne h.symm]

theorem win_install (s : State) (n : WinNo) (d : Definition) :
    (s.install n d).win n = some (d.newWindow ((s.pool.free ++ s.heldBy n).take d.cost)) := by
  simp [State.win, State.install]

/-- Freeing a place 1 to 31 moves its granules to the free list. -/
theorem freePlace_perm (s : State) {n : WinNo} (h : n ≠ 0) :
    ((s.freePlace n).pool.free ++ (s.freePlace n).heldGranules).Perm (s.pool.free ++ s.heldGranules) := by
  obtain ⟨r, a, b⟩ := flatMap_one (f := s.heldBy) (g := (s.freePlace n).heldBy) places_nodup (mem_places h)
    fun k hk => by simp [State.heldBy, win_freePlace_ne _ _ _ hk]
  have e : (s.freePlace n).heldBy n = [] := by simp [State.heldBy, win_freePlace]
  rw [e, List.nil_append] at b
  have f : (s.freePlace n).pool.free = s.pool.free ++ s.heldBy n := rfl
  rw [f, List.append_assoc]
  exact ((b.append_left _).trans a.symm).append_left _

/-- Installing in a place 1 to 31 moves granules between the free list and the place. -/
theorem install_perm (s : State) {n : WinNo} (d : Definition) (h : n ≠ 0) :
    ((s.install n d).pool.free ++ (s.install n d).heldGranules).Perm (s.pool.free ++ s.heldGranules) := by
  obtain ⟨r, a, b⟩ := flatMap_one (f := s.heldBy) (g := (s.install n d).heldBy) places_nodup (mem_places h)
    fun k hk => by simp [State.heldBy, win_install_ne _ _ _ _ hk]
  have e : (s.install n d).heldBy n = (s.pool.free ++ s.heldBy n).take d.cost := by
    simp [State.heldBy, win_install, Window.held, Definition.newWindow]
  have f : (s.install n d).pool.free = (s.pool.free ++ s.heldBy n).drop d.cost := rfl
  rw [e] at b
  rw [f]
  refine (b.append_left _).trans ?_
  rw [← List.append_assoc]
  refine (List.perm_append_comm.append_right r).trans ?_
  rw [List.take_append_drop, List.append_assoc]
  exact a.symm.append_left _

/-- All places 1 to 31 are FREE after `freeAll`; place 0 is as it was. -/
theorem win_freeAll (s : State) (n : WinNo) : s.freeAll.win n = if n = 0 then s.win 0 else none := by
  have step : ∀ (l : List WinNo) (s : State), (l.foldl State.freePlace s).win n = if n ∈ l then none else s.win n := by
    intro l
    induction l with
    | nil => simp
    | cons m l ih =>
      intro s
      rw [List.foldl_cons, ih]
      by_cases e : n = m
      · subst e; simp [win_freePlace]
      · simp [win_freePlace_ne _ _ _ e, e]
  unfold State.freeAll
  rw [step]
  by_cases e : n = 0
  · subst e; rfl
  · simp [mem_places e, e]

theorem freeAll_perm (s : State) :
    (s.freeAll.pool.free ++ s.freeAll.heldGranules).Perm (s.pool.free ++ s.heldGranules) := by
  have step : ∀ (l : List WinNo) (s : State), 0 ∉ l →
      ((l.foldl State.freePlace s).pool.free ++ (l.foldl State.freePlace s).heldGranules).Perm
        (s.pool.free ++ s.heldGranules) := by
    intro l
    induction l with
    | nil => intro s _; exact .refl _
    | cons m l ih =>
      intro s h
      rw [List.mem_cons, not_or] at h
      exact (ih _ h.2).trans (freePlace_perm s (Ne.symm h.1))
  exact step _ s (by decide)

/-- `freeAll` appends the granules of places 1 to 31 to the free list, in ascending window number. -/
theorem freeAll_free (s : State) : s.freeAll.pool.free = s.pool.free ++ s.heldGranules := by
  have step : ∀ (l : List WinNo) (s : State), l.Nodup →
      (l.foldl State.freePlace s).pool.free = s.pool.free ++ l.flatMap s.heldBy := by
    intro l
    induction l with
    | nil => simp
    | cons n l ih =>
      intro s h
      rw [List.nodup_cons] at h
      have e : l.flatMap (s.freePlace n).heldBy = l.flatMap s.heldBy :=
        List.flatMap_congr fun m k => by
          unfold State.heldBy
          have q : m ≠ n := fun q => h.1 (q ▸ k)
          rw [win_freePlace_ne _ _ _ q]
      rw [List.foldl_cons, ih _ h.2, e]
      simp [State.freePlace]
  exact step _ s (by decide)

/-- `freeAll` changes the places and the free list only. -/
theorem freeAll_rest (s : State) : s.freeAll.rst = s.rst ∧ s.freeAll.straps = s.straps ∧ s.freeAll.bus = s.bus ∧
    s.freeAll.pool.usable = s.pool.usable ∧ s.freeAll.pool.mem = s.pool.mem := by
  have step : ∀ (l : List WinNo) (s : State), (l.foldl State.freePlace s).rst = s.rst ∧
      (l.foldl State.freePlace s).straps = s.straps ∧ (l.foldl State.freePlace s).bus = s.bus ∧
      (l.foldl State.freePlace s).pool.usable = s.pool.usable ∧ (l.foldl State.freePlace s).pool.mem = s.pool.mem := by
    intro l
    induction l with
    | nil => intro s; exact ⟨rfl, rfl, rfl, rfl, rfl⟩
    | cons m l ih => intro s; exact ih (s.freePlace m)
  exact step _ s

/-- With every place FREE no granule is held. -/
theorem heldGranules_nil (h : ∀ n, s.win n = none) : s.heldGranules = [] := by
  simp [State.heldGranules, State.heldBy, h]

/-! ### The checks of a definition -/

/-- A chain of checks passes when its first passes and the rest passes. -/
theorem bind_ok {α β : Type} {x : Except DefnFail α} {f : α → Except DefnFail β} {b : β} :
    (x >>= f) = .ok b ↔ ∃ a, x = .ok a ∧ f a = .ok b := by
  cases x <;> simp [bind, Except.bind]

theorem winNo_some {k : Nat} {n : WinNo} (h : winNo? k = some n) : n ≠ 0 ∧ n.val = k := by
  unfold winNo? at h
  split at h
  · split at h
    · cases h
      refine ⟨?_, rfl⟩
      rintro e
      have := congrArg Fin.val e
      simp at this
      omega
    · simp at h
  · simp at h

/-- A passed condition holds. -/
theorem need_ok {b : Bool} {k : Nat} {u : Unit} (h : need b k = .ok u) : b = true := by
  cases b
  · simp [need] at h
  · rfl

/-- Everything a definition that passes the checks meets (R23): each condition, in order. -/
theorem checkDefn_all {r : RawDefn} {n : WinNo} {d : Definition} (h : s.checkDefn r = .ok (n, d)) :
    r.place = .ok n ∧ s.checkPlace n = .ok () ∧
      (1 ≤ r.kind ∧ r.kind ≤ 3 ∧ (r.kind = 3 → s.otherStatus n = false)) ∧ r.base % 16 = 0 ∧
      (r.length % 16 = 0 ∧ 16 ≤ r.length ∧ r.length ≤ 4096 ∧ (r.kind = 3 → r.length = 64) ∧
        r.base + r.length ≤ 0x1000000) ∧
      s.checkRange n r = .ok () ∧ s.checkTopic n r = .ok () ∧
      ∃ body, r.body = .ok body ∧ d = { base := r.base, length := r.length, body := body, startEnabled := decide (r.start = 1) }
        ∧ s.checkRoom n d = .ok (n, d) := by
  unfold State.checkDefn at h
  obtain ⟨m, h1, h⟩ := bind_ok.1 h
  obtain ⟨_, h2, h⟩ := bind_ok.1 h
  obtain ⟨_, h3, h⟩ := bind_ok.1 h
  obtain ⟨_, h4, h⟩ := bind_ok.1 h
  obtain ⟨_, h5, h⟩ := bind_ok.1 h
  obtain ⟨_, h6, h⟩ := bind_ok.1 h
  obtain ⟨_, h7, h⟩ := bind_ok.1 h
  obtain ⟨body, h8, h⟩ := bind_ok.1 h
  have e : m = n ∧ d = { base := r.base, length := r.length, body := body, startEnabled := decide (r.start = 1) } := by
    have h' := h
    unfold State.checkRoom at h'
    dsimp only at h'
    split at h'
    · cases h'; exact ⟨rfl, rfl⟩
    · split at h' <;> cases h'
  obtain ⟨rfl, rfl⟩ := e
  have n3 := need_ok h3
  have n4 := need_ok h4
  have n5 := need_ok h5
  simp only [Bool.and_eq_true, Bool.or_eq_true, decide_eq_true_eq, Bool.not_eq_true', Bool.and_eq_false_iff,
    decide_eq_false_iff_not] at n3 n4 n5
  exact ⟨h1, h2, ⟨n3.1.1, n3.1.2, fun k => n3.2.resolve_left (not_not.2 k)⟩, n4,
    ⟨n5.1.1.1.1, n5.1.1.1.2, n5.1.1.2, fun k => n5.1.2.resolve_left (not_not.2 k), n5.2⟩, h6, h7, body, h8, rfl, h⟩

/-- A definition that passes the checks is for a place 1 to 31 that is FREE or IDLE, and the pool has room for it
(R23). -/
theorem checkDefn_ok {r : RawDefn} {n : WinNo} {d : Definition} (h : s.checkDefn r = .ok (n, d)) :
    n ≠ 0 ∧ (∀ w, s.win n = some w → w.state = .idle) ∧ d.cost ≤ s.pool.free.length + (s.heldBy n).length := by
  obtain ⟨h1, h2, _, _, _, _, _, _, _, _, h3⟩ := checkDefn_all h
  refine ⟨?_, fun w hw => ?_, ?_⟩
  · unfold RawDefn.place at h1
    split at h1
    · rename_i k
      cases h1
      exact (winNo_some k).1
    · cases h1
  · unfold State.checkPlace at h2
    rw [hw] at h2
    dsimp only at h2
    split at h2
    · assumption
    · cases h2
  · unfold State.checkRoom at h3
    dsimp only at h3
    split at h3
    · assumption
    · split at h3 <;> cases h3

/-! ### The definitions that stand together -/

/-- A window of a place keeps its definition where the place's lot is kept. -/
theorem lots_defn (h : ∀ n, t.lots n = s.lots n) {n w} (k : t.win n = some w) : ∃ v, s.win n = some v ∧ v.defn = w.defn := by
  have := h n
  cases e : s.win n with
  | none => simp [State.lots, e, k] at this
  | some v => refine ⟨v, rfl, ?_⟩; simp [State.lots, e, k, Window.lot] at this; exact this.2.symm
theorem Placed.windows (h : Placed s t) (k : WindowsLaw s) : WindowsLaw t := by
  intro n w hw
  obtain ⟨v, hv, e⟩ := lots_defn h.lots hw
  obtain ⟨a, b⟩ := k n v hv
  rw [← e, h.straps]
  refine ⟨a, fun m x hm hx => ?_⟩
  obtain ⟨y, hy, e'⟩ := lots_defn h.lots hx
  rw [← e']; exact b m y hm hy
theorem windows_none (h : ∀ n, s.win n = none) : WindowsLaw s := fun n w hw => by simp [h] at hw
theorem publishBody_ok {r : RawDefn} {b} (h : r.publishBody = .ok b) : ∃ p, b = .publish p ∧ p.topic = r.topic := by
  unfold RawDefn.publishBody at h
  obtain ⟨_, _, h⟩ := bind_ok.1 h
  obtain ⟨_, _, h⟩ := bind_ok.1 h
  obtain ⟨_, _, h⟩ := bind_ok.1 h
  obtain ⟨_, _, h⟩ := bind_ok.1 h
  obtain ⟨_, _, h⟩ := bind_ok.1 h
  cases h; exact ⟨_, rfl, rfl⟩
theorem subscribeBody_ok {r : RawDefn} {b} (h : r.subscribeBody = .ok b) : ∃ p, b = .subscribe p ∧ p.topic = r.topic := by
  unfold RawDefn.subscribeBody at h
  obtain ⟨_, _, h⟩ := bind_ok.1 h
  obtain ⟨_, _, h⟩ := bind_ok.1 h
  obtain ⟨_, _, h⟩ := bind_ok.1 h
  obtain ⟨_, _, h⟩ := bind_ok.1 h
  obtain ⟨_, _, h⟩ := bind_ok.1 h
  cases h; exact ⟨_, rfl, rfl⟩
theorem statusBody_ok {r : RawDefn} {b} (h : r.statusBody = .ok b) : b = .status := by
  unfold RawDefn.statusBody at h
  obtain ⟨_, _, h⟩ := bind_ok.1 h
  cases h; rfl
theorem head_none {l : List WinNo} {p} (h : ((l.filter p).head?).map Fin.val = none) : ∀ m ∈ l, p m = false := by
  intro m hm
  cases e : l.filter p with
  | nil => rw [List.filter_eq_nil_iff] at e; simpa using e m hm
  | cons a b => rw [e] at h; simp at h
theorem refuse_ok {o : Option Nat} {u} (h : refuseOverlap o = .ok u) : o = none := by
  cases o <;> simp [refuseOverlap] at h ⊢
theorem install_windows (s : State) {r n d} (h : s.checkDefn r = .ok (n, d)) (z : s.win 0 = none) (k : WindowsLaw s) : WindowsLaw (s.install n d) := by
  obtain ⟨h1, h2, h3, h4, h5, h6, h7, body, h8, hd, h9⟩ := checkDefn_all h
  have n0 := (checkDefn_ok h).1
  have rng : s.overlapWith n r.base r.length = none := by
    exact refuse_ok h6
  have db : d.base = r.base := by rw [hd]
  have dl : d.length = r.length := by rw [hd]
  have dB : d.body = body := by rw [hd]
  have key : (d.base + d.length ≤ win0Base s.straps.mb ∨ win0Base s.straps.mb + 256 ≤ d.base) := by
    unfold State.overlapWith at rng
    generalize win0Base s.straps.mb = b0 at rng ⊢
    dsimp only at rng
    split at rng
    · cases rng
    · rename_i q
      simp only [Bool.and_eq_true, decide_eq_true_eq, not_and] at q
      rw [db, dl]; omega
  have ok : d.rangeOk s.straps.mb := by
    refine ⟨db ▸ h4, dl ▸ h5.1, dl ▸ h5.2.1, dl ▸ h5.2.2.1, ?_, key⟩
    rw [db, dl]; exact h5.2.2.2.2
  have oth : ∀ m v, m ≠ n → s.win m = some v → d.apart v.defn ∧ d.body.clashes v.defn.body = false ∧ v.defn.body.clashes d.body = false := by
    intro m v hm hv
    have m0 : m ≠ 0 := by rintro rfl; simp [z] at hv
    refine ⟨?_, ?_⟩
    · unfold State.overlapWith at rng
      generalize win0Base s.straps.mb = b0 at rng
      dsimp only at rng
      split at rng
      · cases rng
      · have := head_none rng m (mem_places m0)
        simp only [hm, hv, ne_eq, not_false_eq_true, decide_true, Bool.true_and, Bool.and_eq_false_iff, decide_eq_false_iff_not] at this
        unfold Definition.apart; rw [db, dl]; omega
    · rw [dB]
      have top : r.kind ≠ 3 → v.topicOf r.kind ≠ some r.topic := by
        intro k3
        unfold State.checkTopic at h7
        rw [if_neg k3] at h7
        split at h7
        · split at h7
          · cases h7
          · rename_i q
            have := head_none q m (mem_places m0)
            simpa [hm, hv] using this
        · cases h7
      unfold RawDefn.body at h8
      split at h8
      · rename_i k1
        obtain ⟨p, rfl, e⟩ := publishBody_ok h8
        have := top (by omega)
        unfold Window.topicOf at this
        rw [← e] at this
        cases q : v.defn.body <;> simp [DefBody.clashes, q, k1] at this ⊢
        exact ⟨fun a => this a.symm, this⟩
      · split at h8
        · rename_i k1
          obtain ⟨p, rfl, e⟩ := subscribeBody_ok h8
          have := top (by omega)
          unfold Window.topicOf at this
          rw [← e] at this
          cases q : v.defn.body <;> simp [DefBody.clashes, q, k1] at this ⊢
          exact ⟨fun a => this a.symm, this⟩
        · have := statusBody_ok h8; subst this
          have k3 : r.kind = 3 := by omega
          have := h3.2.2 k3
          unfold State.otherStatus at this
          simp at this
          have := this m (mem_places m0) hm
          rw [hv] at this
          simp [Window.isStatus] at this
          cases q : v.defn.body <;> simp [DefBody.clashes, q] at this ⊢
  intro a w hw
  by_cases e : a = n
  · subst e
    rw [win_install] at hw; cases hw
    refine ⟨ok, fun m v hm hv => ?_⟩
    rw [win_install_ne _ _ _ _ hm] at hv
    exact ⟨(oth m v hm hv).1, (oth m v hm hv).2.1⟩
  · rw [win_install_ne _ _ _ _ e] at hw
    obtain ⟨x, y⟩ := k a w hw
    refine ⟨x, fun m v hm hv => ?_⟩
    by_cases e' : m = n
    · subst e'
      rw [win_install] at hv; cases hv
      have := oth a w e hw
      exact ⟨this.1.symm, this.2.2⟩
    · rw [win_install_ne _ _ _ _ e'] at hv
      exact y m v hm hv
theorem free_windows (s : State) (n) (k : WindowsLaw s) : WindowsLaw (s.freePlace n) := by
  intro a w hw
  by_cases e : a = n
  · subst e; rw [win_freePlace] at hw; cases hw
  · rw [win_freePlace_ne _ _ _ e] at hw
    refine ⟨(k a w hw).1, fun m v hm hv => ?_⟩
    by_cases e' : m = n
    · subst e'; rw [win_freePlace] at hv; cases hv
    · rw [win_freePlace_ne _ _ _ e'] at hv; exact (k a w hw).2 m v hm hv

/-! ### The three laws of places and pool together -/

/-- Place 0 is empty, the granules are all accounted for, and the definitions may stand together. -/
structure Housed (s : State) : Prop where
  zero : s.win 0 = none
  pool : PoolLaw s
  windows : WindowsLaw s

theorem Placed.housed (h : Placed s t) (k : Housed s) : Housed t :=
  ⟨(h.win_none 0).2 k.zero, h.poolLaw k.pool, h.windows k.windows⟩

theorem freePlace_housed (s : State) {n : WinNo} (h : n ≠ 0) (k : Housed s) : Housed (s.freePlace n) :=
  ⟨by rw [win_freePlace_ne _ _ _ h.symm]; exact k.zero, (freePlace_perm s h).trans k.pool, free_windows s n k.windows⟩

theorem install_housed (s : State) {r : RawDefn} {n : WinNo} {d : Definition} (h : s.checkDefn r = .ok (n, d))
    (k : Housed s) : Housed (s.install n d) :=
  have n0 := (checkDefn_ok h).1
  ⟨by rw [win_install_ne _ _ _ _ n0.symm]; exact k.zero, (install_perm s d n0).trans k.pool,
    install_windows s h k.zero k.windows⟩

theorem installOne_housed (s : State) (r : RawDefn) (k : Housed s) : Housed (s.installOne r) := by
  unfold State.installOne
  split
  · rename_i h
    exact install_housed s h k
  · exact k

theorem installAll_housed (s : State) (l : List RawDefn) (k : Housed s) : Housed (s.installAll l) := by
  unfold State.installAll
  generalize l.foldr insertByNumber [] = l
  induction l generalizing s with
  | nil => exact k
  | cons a l ih => exact ih _ (installOne_housed _ a k)

/-- Installing leaves reset control, straps and bus as they were. -/
theorem installAll_rest (s : State) (l : List RawDefn) :
    (s.installAll l).rst = s.rst ∧ (s.installAll l).straps = s.straps ∧ (s.installAll l).bus = s.bus := by
  unfold State.installAll
  generalize l.foldr insertByNumber [] = l
  induction l generalizing s with
  | nil => exact ⟨rfl, rfl, rfl⟩
  | cons a l ih =>
    obtain ⟨x, y, z⟩ := ih (s.installOne a)
    have e : (s.installOne a).rst = s.rst ∧ (s.installOne a).straps = s.straps ∧ (s.installOne a).bus = s.bus := by
      unfold State.installOne
      split <;> exact ⟨rfl, rfl, rfl⟩
    exact ⟨x.trans e.1, y.trans e.2.1, z.trans e.2.2⟩

theorem freeAll_housed (s : State) (k : Housed s) : Housed s.freeAll := by
  refine ⟨by rw [win_freeAll]; simp [k.zero], ?_, ?_⟩
  · unfold PoolLaw
    rw [(freeAll_rest s).2.2.2.1]
    exact (freeAll_perm s).trans k.pool
  · intro n w hw
    rw [win_freeAll] at hw
    split at hw
    · rename_i e
      subst e
      rw [k.zero] at hw
      cases hw
    · cases hw

/-- The start of a reset kind leaves every place FREE. -/
theorem win_beginReset (s : State) (kind : ResetKind) (k : s.win 0 = none) (n : WinNo) :
    (s.beginReset kind).win n = none := by
  have e : (s.beginReset kind).win n = s.stopWrite.freeAll.win n := rfl
  rw [e, win_freeAll]
  split
  · exact ((stopWrite_placed s).win_none 0).2 k
  · rfl

theorem beginReset_housed (s : State) (kind : ResetKind) (k : Housed s) : Housed (s.beginReset kind) where
  zero := win_beginReset s kind k.zero 0
  pool := by
    have e : (s.beginReset kind).pool = s.stopWrite.freeAll.pool := rfl
    have g : (s.beginReset kind).heldGranules = s.stopWrite.freeAll.heldGranules := rfl
    unfold PoolLaw
    rw [e, g]
    exact (freeAll_housed _ ((stopWrite_placed s).housed k)).pool
  windows := windows_none (win_beginReset s kind k.zero)

/-- The start of a reset kind leaves reset control as it was but for the kind. -/
theorem beginReset_rst (s : State) (kind : ResetKind) : (s.beginReset kind).rst = { s.rst with kind := kind } := by
  have e : (s.beginReset kind).rst = { s.stopWrite.freeAll.rst with kind := kind } := rfl
  rw [e, (freeAll_rest _).1, (stopWrite_placed s).rst]

end Sys2Proof.Machine

end
end

