-- ==== Sys2Proof/WellFormed.lean ====
section
/-! DEFINITION. The ranges of a command's operands. A command outside its range names nothing the part has (a
place 0, a node 0, a group 0) or a frame longer than the port carries. -/

namespace Sys2Proof

/-- A window of places 1 to 31 (R22). -/
def placeOk (n : WinNo) : Bool := decide (1 ≤ n.val)

/-- A drift node number (R109). -/
def nodeOk (n : Nat) : Bool := decide (1 ≤ n) && decide (n ≤ 254)

/-- A body of at most 256 bytes and its CRC-16 (R104, R133). -/
def frameOk (bytes : List Byte) : Bool := decide (bytes.length ≤ 258)

/-- The operands of a command lie in the ranges the spec gives them. -/
def Instr.wellFormed : Instr → Bool
  | .neighbourDrop node => nodeOk node
  | .refresh n => placeOk n
  | .windowExpiry n => placeOk n
  | .refillExpiry n => placeOk n
  | .stagingLimit g => decide (1 ≤ g.val)
  | .beacon b => frameOk b
  | .realign b => frameOk b
  | .downlinkFrame b => frameOk b
  | .badCrcFrame b => frameOk b
  | .foreignFrame b => frameOk b
  | .deliveryRecord m => decide (1 ≤ m)
  | .profileWriteEnd b => decide (b.length ≤ 8192)
  | .powerOn | .resetAssert | .bypassAssert | .bypassRelease _ | .resetRelease _ | .poolTestEnd _
  | .cPortWrite _ | .cPortRead _ | .drainStep | .unknownCommand | .setw | .enbw | .disw | .delw | .qryw
  | .push | .peek | .setid | .join | .leave | .hold | .resume | .nbrs | .cntr | .alrt | .psav | .plod
  | .testMinor1 | .testMinor2 | .rset | .granuleClear | .peekGranuleRead | .poolTestOperation _
  | .profileWriteTimeout | .slotStart | .holdoverExpiry | .joinUnanswered | .joinWaitExpiry | .frameLost
  | .recordRead | .frameCutOff | .transmissionEnd | .cycleStart | .suppressedWrap | .ageOut | .autoClear
  | .lockRise | .lockFall | .startingTimeout | .endOfStartUp | .startDelimiter _ _ => true

end Sys2Proof
end

