-- ==== Sys2Proof/Tests/Slice0.lean ====
section
/-! SUPPORT. Tests: ill-formed commands are refused by WellFormed, the premises of each obligation are met by a concrete
state (witness_<name>), and the spec's worked figures come out. -/

section

set_option Elab.async false

namespace Sys2Proof.Tests
open Sys2Proof.Machine

/-! ### States built for the tests -/

/-- The part after start-up: no window defined, four granules free, the link OFF. -/
def up : State :=
  { State.reset with
    rst := { supply := false, pinLow := false, bypassLow := false, kind := .powerOn, phase := .running
             testOwed := false }
    pool := { mem := [], free := [4, 5, 6, 7], usable := true } }

/-- A state with a window in a place. -/
def put (s : State) (n : WinNo) (w : Window) : State := { s with places := s.places.set n (some w) }

/-- One LIVE granule at 0x10000 with this body and these granules. -/
def live (body : DefBody) (granules : List Nat) : Window :=
  { ({ base := 0x10000, length := 16, body := body, startEnabled := false } : Definition).newWindow granules with
    state := .live }

def pubBody (mode : PubMode) : DefBody := .publish { topic := 5, cls := 1, mode := mode, refresh := 2 }

def subBody (action : ExpiryAction) (release : Bool) (group : GroupNo) : DefBody :=
  .subscribe { topic := 6, hold := 3, action := action, releaseOnWrite := release, group := group }

def onWrite : Window := live (pubBody .onWrite) [3]
def onTrigger : Window := live (pubBody (.onTrigger 14)) [2, 3]

/-- A STATUS window at 0x10000. -/
def statusWin : Window :=
  { ({ base := 0x10000, length := 64, body := .status, startEnabled := false } : Definition).newWindow [] with
    state := .live }

/-- A cycle at a byte address, both lanes enabled, parity pins low. -/
def at_ (a : Nat) (data : Word) : BusCycle :=
  { addr := BitVec.ofNat 23 (a / 2), data := data, low := true, high := true, parLow := false, parHigh := false }

theorem win_put (s : State) (n : WinNo) (w : Window) : (put s n w).win n = some w := by
  unfold put State.win; exact Vector.getElem_set_self ..

theorem put_win {n m : WinNo} {w v : Window} (h : (put up n w).win m = some v) : m = n ∧ v = w := by
  by_cases e : m = n
  · subst e; rw [win_put] at h; cases h; exact ⟨rfl, rfl⟩
  · exfalso
    unfold put State.win at h
    have := Vector.getElem_set_ne (xs := up.places) (x := some w) n.isLt m.isLt (fun k => e (Fin.ext k.symm))
    simp only [Fin.getElem_fin] at h this
    rw [this] at h
    revert h
    simp [up, State.reset]

/-! ### Well-formedness -/

theorem test_neighbourDrop_node0 : Instr.wellFormed (.neighbourDrop 0) = false := by decide
theorem test_neighbourDrop_node255 : Instr.wellFormed (.neighbourDrop 255) = false := by decide
theorem test_refresh_place0 : Instr.wellFormed (.refresh 0) = false := by decide
theorem test_windowExpiry_place0 : Instr.wellFormed (.windowExpiry 0) = false := by decide
theorem test_refillExpiry_place0 : Instr.wellFormed (.refillExpiry 0) = false := by decide
theorem test_stagingLimit_group0 : Instr.wellFormed (.stagingLimit 0) = false := by decide
theorem test_beacon_too_long : Instr.wellFormed (.beacon (List.replicate 259 0)) = false := by decide +kernel
theorem test_realign_too_long : Instr.wellFormed (.realign (List.replicate 259 0)) = false := by decide +kernel
theorem test_downlink_too_long : Instr.wellFormed (.downlinkFrame (List.replicate 259 0)) = false := by decide +kernel
theorem test_badCrc_too_long : Instr.wellFormed (.badCrcFrame (List.replicate 259 0)) = false := by decide +kernel
theorem test_foreign_too_long : Instr.wellFormed (.foreignFrame (List.replicate 259 0)) = false := by decide +kernel
theorem test_deliveryRecord_no_moves : Instr.wellFormed (.deliveryRecord 0) = false := by decide
theorem test_profileWriteEnd_too_long : Instr.wellFormed (.profileWriteEnd (List.replicate 8193 0)) = false := by
  decide +kernel

/-! ### Witnesses: the queue, resets and start-up -/

/-- A front command; an idle step while held, and one while released in a slot. -/
theorem witness_steps : ({ up with pending := [.lockRise] } : State).pending = .lockRise :: [] ∧
    (State.reset.pending = [] ∧ State.reset.held = true) ∧
    (up.pending = [] ∧ up.held = false ∧ up.due = [] ∧
      (up.timer.phi.toNat + (524288 + up.timer.trim).toNat) / 2 ^ 34 = up.timer.phi.toNat / 2 ^ 34) := by decide

/-- Every requester waits; and none. -/
theorem witness_waiting :
    (let s := { up with
      tap := { up.tap with fifo := [.loss 3] }, mbox := { up.mbox with work := .snapshot }
      fe := { up.fe with reads := [{ win := 1, first := 0, last := 0, bestEffort := false, ofFrame := false, purged := false }] } }
     s.port = none ∧ ∀ r, Waits s r) ∧
    up.port = none ∧ ∀ r, ¬ Waits up r := by
  refine ⟨⟨rfl, fun r => ?_⟩, rfl, fun r => ?_⟩
  · cases r
    · exact ⟨rfl, rfl, .inl nofun⟩
    · exact ⟨rfl, rfl, .inl nofun⟩
    · exact ⟨rfl, rfl, .inl rfl⟩
  · cases r
    · rintro ⟨_, _, h | h⟩ <;> exact h rfl
    · rintro ⟨_, _, h | h | ⟨d, ds, fs, h, _⟩⟩
      · exact h rfl
      · exact h rfl
      · cases h
    · rintro ⟨_, _, h | ⟨_, _, h⟩ | ⟨_, h⟩ | ⟨_, h⟩⟩ <;> cases h

/-- The mailbox BUSY with a code at its snapshot under its grant, parameter words 1 and on as given. -/
def busy (s : State) (code : Word) (words : List Word) : State :=
  { s with
    port := some .mailbox
    mbox := { s.mbox with state := .busy, code := code, work := .snapshot }
    win0 := { s.win0 with mem := Memory.writeAll 0 s.win0.mem 2 (words.flatMap busWord) } }

/-- Each reset's own premises; BYPASS# low alone, and with RESET# low too; nothing held; strap pins other than the straps. -/
theorem witness_ResetsBeginAndEnd : State.reset.rst.pinLow = false ∧ State.reset.rst.bypassLow = false ∧
    CommandDue 0xA5FF { busy up 0xA5FF [] with strapPins := { mb := 15, paren := true, parodd := true } } ∧
    (∀ pin, let s := { up with rst := { up.rst with bypassLow := true, pinLow := pin } }
     s.rst.bypassLow = true ∧ s.rst.supply = false ∧ s.rst.pinLow = pin) ∧
    (State.reset.rst.bypassLow = false ∧ State.reset.rst.supply = true) ∧
    (up.rst.bypassLow = false ∧ up.rst.supply = false ∧ up.rst.pinLow = false) := by
  unfold CommandDue; decide

/-- Released, in start-up or in the pool test, with a store. -/
def starting (phase : Phase) (store : Store) : State :=
  { up with rst := { up.rst with phase := phase, testOwed := decide (phase = .poolTest) }, store := store }

theorem no_places (s : State) (h : s.places = Vector.replicate 32 none) (n : WinNo) : s.win n = none := by
  unfold State.win; rw [h]; simp

/-- A store that begins with these bytes. -/
def stored (l : List Byte) : Memory := l.zipIdx.map fun (p : Byte × Nat) => (p.2, p.1)

/-- A store of format 1 by its count, then with each field of R169 out of its range: length, CRC, enable sets, flags, car
number, the first and the last parameter, λ, a window number, and two definitions of one number. -/
theorem invalid_stores : ∀ l ∈ ([[1], [1, 0, 28] ++ List.replicate 22 0,
      [1, 0, 27] ++ List.replicate 22 0 ++ [0, 0], [1, 0, 27] ++ List.replicate 15 0 ++ [16] ++ List.replicate 6 0,
      [1, 0, 27] ++ List.replicate 17 0 ++ [16] ++ List.replicate 4 0, [1, 0, 27] ++ List.replicate 19 0 ++ [2, 0, 0],
      [1, 0, 27] ++ List.replicate 20 0 ++ [2, 0], [1, 0, 27, 128] ++ List.replicate 21 0,
      [1, 0, 27, 0, 201] ++ List.replicate 20 0, [1, 0, 27] ++ List.replicate 12 0 ++ [17] ++ List.replicate 9 0,
      [1, 0, 27] ++ List.replicate 13 0 ++ [4, 0] ++ List.replicate 7 0,
      [1, 0, 51] ++ List.replicate 21 0 ++ [1, 32],
      [1, 0, 75] ++ List.replicate 21 0 ++ [2, 31] ++ List.replicate 23 0 ++ [31]] : List (List Byte)),
    (stored l).Invalid := by
  intro l h
  simp only [List.mem_cons, List.not_mem_nil, or_false] at h
  rcases h with rfl | rfl | rfl | rfl | rfl | rfl | rfl | rfl | rfl | rfl | rfl | rfl | rfl
  · exact ⟨by decide +kernel, .inl (by decide +kernel)⟩
  · exact ⟨by decide +kernel, .inr (.inl (by decide +kernel))⟩
  · exact ⟨by decide +kernel, .inr (.inr (.inl (by decide +kernel)))⟩
  · exact ⟨by decide +kernel, .inr (.inr (.inr (.inl (by decide +kernel))))⟩
  · exact ⟨by decide +kernel, .inr (.inr (.inr (.inr (.inl (by decide +kernel)))))⟩
  · exact ⟨by decide +kernel, .inr (.inr (.inr (.inr (.inr (.inl (by decide +kernel))))))⟩
  · exact ⟨by decide +kernel, .inr (.inr (.inr (.inr (.inr (.inr (.inl (by decide +kernel)))))))⟩
  · exact ⟨by decide +kernel, .inr (.inr (.inr (.inr (.inr (.inr (.inr (.inl
      ⟨1, by decide, by decide, show ¬ _ ≤ 127 by decide +kernel⟩)))))))⟩
  · exact ⟨by decide +kernel, .inr (.inr (.inr (.inr (.inr (.inr (.inr (.inl
      ⟨2, by decide, by decide, show ¬ _ ≤ 200 by decide +kernel⟩)))))))⟩
  · exact ⟨by decide +kernel, .inr (.inr (.inr (.inr (.inr (.inr (.inr (.inl
      ⟨13, by decide, by decide, show ¬ _ ≤ 16 by decide +kernel⟩)))))))⟩
  · exact ⟨by decide +kernel, .inr (.inr (.inr (.inr (.inr (.inr (.inr (.inr (.inl
      (show ¬ _ ≤ 1023 by decide +kernel)))))))))⟩
  · exact ⟨by decide +kernel, .inr (.inr (.inr (.inr (.inr (.inr (.inr (.inr (.inr (.inl
      ⟨0, by decide +kernel, .inr (by decide +kernel)⟩)))))))))⟩
  · exact ⟨by decide +kernel, .inr (.inr (.inr (.inr (.inr (.inr (.inr (.inr (.inr (.inr
      ⟨0, 1, by decide, by decide +kernel, by decide +kernel⟩)))))))))⟩

/-- A store erased, of another format, INVALID, and torn; in the pool test and past it, after power-on and after an RSET. -/
theorem witness_StartUpOnDefaults : ∀ phase ∈ [Phase.poolTest, .startUp], ∀ kind ∈ [ResetKind.powerOn, .rset],
    ∀ x ∈ [Store.torn, .holds [], .holds [(0, 2)], .holds (stored [1])],
    let s := { starting phase x with rst := { (starting phase x).rst with kind := kind } }
    s.held = false ∧ (s.store = .torn ∨ ∃ m : Memory, s.store = .holds m ∧ (m.read 0xFF 0 ≠ 1 ∨ m.Invalid)) ∧
      s.places = Vector.replicate 32 none ∧ s.rst.phase = phase ∧ s.rst.kind = kind := by
  intro phase _ kind _ x h
  refine ⟨rfl, ?_, rfl, rfl, rfl⟩
  simp only [List.mem_cons, List.not_mem_nil, or_false] at h
  rcases h with rfl | rfl | rfl | rfl
  · exact .inl rfl
  · exact .inr ⟨_, rfl, .inl (by decide)⟩
  · exact .inr ⟨_, rfl, .inl (by decide)⟩
  · exact .inr ⟨_, rfl, .inr (invalid_stores _ List.mem_cons_self)⟩

/-- A profile of 27 bytes: car number, default parameters, every alert recorded, auto-join (R181). -/
def profile (car : Byte) : List Byte :=
  let body : List Byte := [1, 0, 27, car, 40, 2, 4, 24, 6, 64, 20, 3, 4, 25, 8, 4, 0, 96, 0x0F, 0xFF, 0, 0, 0, 1, 0]
  body ++ airWord (crc16 body)

theorem profile_valid : (starting .startUp (Store.ofBytes (profile 127))).judgeStore = .valid ∧
    (starting .startUp (Store.ofBytes (profile 1))).judgeStore = .valid := by decide +kernel

theorem profile_joins :
    (let p := profileOf (Store.ofBytes (profile 1)).bytes; p.autoJoin = true ∧ 1 ≤ p.car ∧ p.car ≤ 127) ∧
    (let p := profileOf (Store.ofBytes (profile 127)).bytes; p.autoJoin = true ∧ 1 ≤ p.car ∧ p.car ≤ 127) := by
  decide +kernel

theorem up_staging : ∀ g : GroupNo, up.groups[g].staging = none := by decide

/-- Car numbers 1 and 127, the ends of the range that auto-join asks for, in the pool test and past it, after power-on and after
an RSET, no staging in progress. -/
theorem witness_StartUpTakesTheProfile : ∀ car ∈ [1, 127], ∀ phase ∈ [Phase.poolTest, .startUp],
    ∀ kind ∈ [ResetKind.powerOn, .rset], ∃ p,
    let x := starting phase (Store.ofBytes (profile car))
    let s := { x with rst := { x.rst with kind := kind } }
    s.held = false ∧ s.rst.phase = phase ∧ s.rst.kind = kind ∧ s.storedProfile = some p ∧
      s.places = Vector.replicate 32 none ∧ (∀ g : GroupNo, s.groups[g].staging = none) ∧
      p.autoJoin = true ∧ 1 ≤ p.car ∧ p.car ≤ 127 := by
  intro car h phase _ kind _
  simp only [List.mem_cons, List.not_mem_nil, or_false] at h
  rcases h with rfl | rfl
  · exact ⟨_, rfl, rfl, rfl, if_pos profile_valid.2, rfl, up_staging, profile_joins.1⟩
  · exact ⟨_, rfl, rfl, rfl, if_pos profile_valid.1, rfl, up_staging, profile_joins.2⟩

/-- A profile with one definition: window 31, PUBLISH, one granule at 0x20000, start-enabled. -/
def profile31 : List Byte :=
  [1, 0, 51, 7, 40, 2, 4, 24, 6, 64, 20, 3, 4, 25, 8, 4, 0, 96, 0x0F, 0xFF, 0, 0, 0, 0, 1] ++
    [31, 1, 2, 0, 0, 0, 16, 0x03, 0xFF, 3, 0, 0, 0, 255, 0, 0, 0, 0, 0, 0, 1, 0, 0, 0, 0xBC, 0x06]

/-- A store with that profile and nothing behind it. -/
def store31 : Store := .holds (profile31.zipIdx.map fun (p : Byte × Nat) => (p.2, p.1))

theorem store31_bytes : store31.bytes = profile31 ++ List.replicate 720 255 := by decide +kernel

theorem store31_valid : (starting .startUp store31).judgeStore = .valid := by
  show judgeBytes store31.bytes = .valid
  rw [store31_bytes]
  decide +kernel

theorem store31_number : (profileOf store31.bytes).defns.map RawDefn.number = [31] := by
  rw [store31_bytes]
  decide +kernel

/-- A VALID profile with a definition of window 31; and a definition that passes every check beside no window. -/
theorem witness_ProfileWithDefinition :
    (let s := starting .startUp store31
     s.held = false ∧ s.rst.phase = .startUp ∧ s.places = Vector.replicate 32 none ∧
       ∃ p, s.storedProfile = some p ∧ p.defns.map RawDefn.number = [31]) ∧
    (up.checkDefn { number := 31, kind := 1, base := 0x20000, length := 16, topic := 1023, cls := 3, mode := 0
                    trigger := 0, refresh := 255, hold := 0, action := 0, fallback := 0, release := 0, group := 0
                    start := 1 }).toOption = some (31,
      { base := 0x20000, length := 16, startEnabled := true
        body := .publish { topic := 1023, cls := 3, mode := .onWrite, refresh := 255 } }) :=
  ⟨⟨by decide, rfl, rfl, _, if_pos store31_valid, store31_number⟩, by decide +kernel⟩

/-! ### Witnesses: the bus -/

theorem witness_AddressMatchesItsWindow : WindowsLaw (put up 1 onWrite) ∧ (put up 1 onWrite).win 0 = none ∧
    (put up 1 onWrite).matchAddr 0x10000 = some (1, 0) ∧ (put up 1 onWrite).matchAddr 0x1000E = some (1, 14) ∧
    (put up 1 onWrite).matchAddr 0x10010 = none ∧ (put up 1 onWrite).matchAddr 0x0FFF00 = some (0, 0) ∧
    (put up 1 onWrite).matchAddr 0x0FFFFE = some (0, 254) := by
  refine ⟨?_, by decide +kernel⟩
  intro n w h
  obtain ⟨rfl, rfl⟩ := put_win h
  exact ⟨by unfold Definition.rangeOk; decide +kernel, fun m v a b => absurd (put_win b).1 a⟩

/-- A FIFO of `n` entries. -/
def fill (s : State) (n : Nat) : State :=
  { s with tap := { s.tap with fifo := List.replicate n (.loss 0), peak := n } }

/-- Window 0, a PUBLISH window and the alert-clear word, at occupancies 0, 63 and 64. -/
theorem witness_CapturableWriteIsTakenOrLost :
    Capturable up (at_ 0x0FFF00 1) 0 ∧ up.tap.fifo.length < 64 ∧
    Capturable (fill (put up 1 onWrite) 63) (at_ 0x1000E 1) 1 ∧ (fill (put up 1 onWrite) 63).tap.fifo.length < 64 ∧
    Capturable (fill (put up 1 statusWin) 64) (at_ 0x10030 1) 1 ∧
    64 ≤ (fill (put up 1 statusWin) 64).tap.fifo.length :=
  ⟨⟨rfl, .inl rfl, 0, by decide +kernel, .inl rfl⟩, by decide,
   ⟨rfl, .inl rfl, 14, by decide +kernel, .inr ⟨_, win_put .., rfl, .inl rfl⟩⟩, by decide,
   ⟨rfl, .inl rfl, 0x30, by decide +kernel, .inr ⟨_, win_put .., rfl, .inr ⟨rfl, rfl⟩⟩⟩, by decide⟩

theorem not_capturable {s : State} {c : BusCycle} (h : ∀ n k, s.matchAddr (2 * c.addr.toNat) = some (n, k) →
    n ≠ 0 ∧ ∀ w, s.win n = some w → w.isPublish = false ∧ w.isStatus = false) (n : WinNo) : ¬ Capturable s c n := by
  rintro ⟨_, _, k, e, rfl | ⟨w, a, _, b⟩⟩
  · exact (h _ _ e).1 rfl
  · have := (h _ _ e).2 w a
    rcases b with b | b <;> simp_all

theorem put_up_match {w : Window} {a k k' : Nat} {n : WinNo} (e : (put up 1 w).matchAddr a = some (1, k))
    (h : (put up 1 w).matchAddr a = some (n, k')) : n = 1 := by rw [e] at h; cases h; rfl

/-- A release-on-write window and one without, each with both lanes. -/
theorem witness_OtherWritesReleaseOrPass : ∀ release,
    (∀ n, ¬ Capturable (put up 1 (live (subBody .hold release 0) [3])) (at_ 0x10000 1) n) ∧
    (∃ k, Falls (put up 1 (live (subBody .hold release 0) [3])) (at_ 0x10000 1) 1
      (live (subBody .hold release 0) [3]) k) ∧ (at_ 0x10000 1).low = true := by
  intro release
  have e : (put up 1 (live (subBody .hold release 0) [3])).matchAddr (2 * (at_ 0x10000 1).addr.toNat) = some (1, 0) := by
    revert release; decide +kernel
  refine ⟨not_capturable fun n k h => ?_, ⟨0, rfl, by decide, e, win_put .., rfl⟩, rfl⟩
  have := put_up_match e h
  subst this
  exact ⟨by decide, fun w a => by rw [win_put] at a; cases a; exact ⟨rfl, rfl⟩⟩

/-- An EXPIRED FALLBACK window, a window with its granule present, one without, a STATUS window at the ends of its record and at
the alert-clear word, and window 0 in each mailbox state at the ends of its parts. -/
theorem witness_ReadsReturn :
    (∃ w, Falls (put up 1 w) (at_ 0x10000 1) 1 w 0 ∧ w.defn.body = subBody (.fallback 7) false 0 ∧
      w.ov.state = .expired) ∧
    (∃ w, Falls (put up 1 w) (at_ 0x1000E 1) 1 w 14 ∧ w.defn.body = subBody .hold false 0 ∧
      w.ov.state = .expired ∧ w.ov.present.getD (14 / 16) false = true) ∧
    (∃ w, Falls (put up 1 w) (at_ 0x10000 1) 1 w 0 ∧ w.defn.body = subBody .hold false 0 ∧
      w.ov.present.getD (0 / 16) false = false) ∧
    (∃ w, Falls (put up 1 w) (at_ 0x10000 1) 1 w 0 ∧ Falls (put up 1 w) (at_ 0x10030 1) 1 w 0x30 ∧
      Falls (put up 1 w) (at_ 0x1003E 1) 1 w 0x3E ∧ w.defn.body = .status) ∧
    (∃ w, (put up 1 w).matchAddr 0x10000 = some (1, 0) ∧ w.state ≠ .live) ∧
    up.matchAddr 0x10000 = none ∧ State.reset.held = true ∧
    up.matchAddr 0x0FFF00 = some (0, 0) ∧ up.matchAddr 0x0FFF02 = some (0, 2) ∧
    up.matchAddr 0x0FFF7E = some (0, 0x7E) ∧ up.matchAddr 0x0FFF80 = some (0, 0x80) ∧
    up.matchAddr 0x0FFFFE = some (0, 0xFE) ∧ up.mbox.state = .ready :=
  ⟨⟨{ live (subBody (.fallback 7) false 0) [3] with ov := { present := [false], staged := [], swapped := false
                                                            revision := none, age := 3, state := .expired } },
      ⟨rfl, by decide, by decide +kernel, win_put .., rfl⟩, rfl, rfl⟩,
   ⟨{ live (subBody .hold false 0) [3] with ov := { present := [true], staged := [], swapped := false
                                                    revision := none, age := 3, state := .expired } },
      ⟨rfl, by decide, by decide +kernel, win_put .., rfl⟩, rfl, rfl, rfl⟩,
   ⟨live (subBody .hold false 0) [3], ⟨rfl, by decide, by decide +kernel, win_put .., rfl⟩, rfl, rfl⟩,
   ⟨statusWin, ⟨rfl, by decide, by decide +kernel, win_put .., rfl⟩, ⟨rfl, by decide, by decide +kernel, win_put .., rfl⟩,
      ⟨rfl, by decide, by decide +kernel, win_put .., rfl⟩, rfl⟩,
   ⟨{ onWrite with state := .idle }, by decide +kernel, by decide⟩, by decide +kernel⟩

/-- The slot free with a byte unknown, and the slot taken. -/
theorem witness_PublishReadIsLearned : Falls (put up 1 onWrite) (at_ 0x1000E 1) 1 onWrite 14 ∧
    onWrite.isPublish = true ∧ (put up 1 onWrite).tap.learn = none ∧ onWrite.pub.known.getD 14 false = false ∧
    ∃ s : State, Falls s (at_ 0x1000E 1) 1 onWrite 14 ∧ s.tap.learn.isSome = true :=
  ⟨⟨rfl, by decide, by decide +kernel, win_put .., rfl⟩, rfl, rfl, rfl,
   { put up 1 onWrite with tap := { up.tap with
      learn := some { win := 1, addr := 0, data := 0, low := true, high := true } } },
   ⟨rfl, by decide, by decide +kernel, win_put up 1 onWrite, rfl⟩, rfl⟩

/-! ### Witnesses: the Drain Engine -/

/-- A captured write of both lanes. -/
def capt (n : WinNo) (a : Nat) (goodLow goodHigh : Bool) : Captured :=
  { win := n, addr := BitVec.ofNat 23 (a / 2), data := 0x1234, low := true, high := true, goodLow := goodLow
    goodHigh := goodHigh }

/-- Entries wait in the FIFO, and a drain step is in progress that took the head alone. -/
def draining (s : State) (l : List FifoEntry) : State :=
  { s with port := some (.drain { learn := none, entry := true }), tap := { s.tap with fifo := l, peak := l.length } }

theorem witness_ChangeMovesTheGranule : ∀ x ∈ [GranState.idle, .wanted, .waiting, .inFlight, .inFlightAgain],
    let w := { onWrite with pub := { onWrite.pub with states := [x] } }
    (put up 1 w).win 1 = some w ∧ w.state = .live ∧ w.isPublish = true ∧ 0 < w.pub.states.length ∧ w.granState 0 = x :=
  fun x _ => ⟨win_put .., rfl, rfl, by simp, rfl⟩

/-- A LIVE window of 16 fully known granules, all WAITING but number 7, which is WANTED. -/
def wide : Window :=
  let w := ({ base := 0x10000, length := 256, body := pubBody .onWrite, startEnabled := false } : Definition).newWindow
    (List.range 16)
  { w with
    state := .live
    pub := { w.pub with known := List.replicate 256 true, states := (List.replicate 16 .waiting).set 7 .wanted } }

/-- A WAITING entry of window `n` with these granules. -/
def run (n : WinNo) (first last : Nat) : Entry :=
  { win := n, first := first, last := last, cls := 1, attempts := 0, age := 0, seq := none }

/-- A journal with these entries, window 1 as above. -/
def journaled (l : List Entry) : State := { put up 1 wide with journal := { entries := l, hold := false } }

/-- Granule 7 beside a lower and an upper neighbour alone; beside both in either order, at a combined span of 14 and of 15; with
none, at 0, 47 and 48 entries. -/
theorem witness_QueueRequests :
    ((1 : WinNo) ≠ 0 ∧ wide.state = .live ∧ wide.isPublish = true ∧ 7 < wide.pub.states.length ∧
      wide.granState 7 = .wanted ∧ wide.fullyKnown 7 = true ∧ wide.pub.backlog = false ∧
      ∃ p, wide.defn.body = .publish p) ∧
    (∀ l ∈ [[run 1 0 6], [run 1 8 8], [run 1 0 6, run 1 8 13], [run 1 8 13, run 1 0 6], [run 1 0 6, run 1 8 14], [],
        List.replicate 47 (run 2 0 0), List.replicate 48 (run 2 0 0)],
      (journaled l).win 1 = some wide ∧ JournalLaw (journaled l)) ∧
    (LowerOf 1 7 (run 1 0 6) ∧ UpperOf 1 7 (run 1 8 8) ∧ UpperOf 1 7 (run 1 8 13) ∧ UpperOf 1 7 (run 1 8 14) ∧
      ¬ LowerOf 1 7 (run 2 0 0) ∧ ¬ UpperOf 1 7 (run 2 0 0)) ∧
    (run 1 8 13).last ≤ (run 1 0 6).first + 13 ∧ (run 1 0 6).first + 13 < (run 1 8 14).last ∧
    ∀ n w, up.win n = some w → w.state = .live → w.pub.backlog = false := by
  refine ⟨⟨by decide, rfl, rfl, by decide, by decide, by decide +kernel, rfl, _, rfl⟩, fun l h => ⟨win_put up 1 wide, ?_⟩,
    ?_, by decide, by decide,
    fun n w h => by rw [no_places up rfl] at h; cases h⟩
  · show EntriesLaw l
    unfold EntriesLaw Entry.runOk
    revert l
    decide +kernel
  · unfold LowerOf UpperOf Extendable
    decide

/-- R59: the merge counts 2 and leaves one entry of 14 granules. -/
theorem test_merge_spans_14 :
    let t := (journaled [run 1 8 13, run 1 0 6]).change 1 7
    (t.journal.entries, t.counter .coalesced) = ([run 1 0 13], 2) := by decide +kernel

/-- R61: a scan queues the WANTED granule of a LIVE, backlogged window and clears the flag; with 48 entries the offer is refused
and the flag stays; a window that is not backlogged is passed by. -/
theorem test_backlog_scan :
    ([(true, [run 1 0 6, run 1 8 13]), (true, List.replicate 48 (run 2 0 0)), (false, [run 1 0 6])].map fun x =>
      let w := { wide with pub := { wide.pub with backlog := x.1 } }
      let t := ({ put up 1 w with journal := { entries := x.2, hold := false } } : State).backlogScan
      (t.journal.entries.length, (t.win 1).map fun v => (v.granState 7, v.pub.backlog))) =
    [(1, some (.waiting, false)), (48, some (.wanted, true)), (1, some (.wanted, false))] := by decide +kernel

theorem idle_win {n : WinNo} {w v : Window} (h : (put up n w).win n = some v) : v = w := by
  rw [win_put] at h; cases h; rfl

/-- An IDLE, a fenced and a SUBSCRIBE window; and 63 entries behind the head with a waiting loss set. -/
theorem witness_DrainDiscardsEntry :
    (∀ w ∈ [{ onWrite with state := .idle }, { onWrite with fence := 1 }, live (subBody .hold false 0) [3]],
      let s := draining (put up 1 w) [.write (capt 1 0x10000 true true)]
      Draining s (.write (capt 1 0x10000 true true)) [] ∧ s.tap.loss = 0 ∧
      ∀ v, s.win 1 = some v → v.state ≠ .live ∨ v.fence ≠ 0 ∨ ∃ d, v.defn.body = .subscribe d) ∧
    (let s := { draining up (.write (capt 1 0x10000 true true) :: List.replicate 63 (.loss 1)) with
        tap := { fifo := .write (capt 1 0x10000 true true) :: List.replicate 63 (.loss 1), loss := 1, peak := 64
                 learn := none } }
     Draining s (.write (capt 1 0x10000 true true)) (List.replicate 63 (.loss 1)) ∧ s.win 1 = none ∧
      s.tap.loss ≠ 0) := by
  refine ⟨fun w h => ⟨⟨?_, rfl⟩, rfl, fun v e => ?_⟩, ⟨by decide, rfl⟩, by decide, by decide⟩
  · rfl
  · obtain rfl := idle_win (n := 1) e
    simp only [List.mem_cons, List.not_mem_nil, or_false] at h
    rcases h with rfl | rfl | rfl
    · exact .inl (by decide)
    · exact .inr (.inl (by decide))
    · exact .inr (.inr ⟨_, rfl⟩)

/-- One lane good and one bad; and a write to the trigger word with both lanes bad. -/
theorem witness_DrainWritesShadow :
    (∀ w ∈ [onWrite, onTrigger],
      let s := draining (put up 1 w) [.write (capt 1 0x10000 true false)]
      Draining s (.write (capt 1 0x10000 true false)) [] ∧ MemoryLaw s ∧ s.win 1 = some w ∧ w.state = .live ∧
        w.fence = 0 ∧ (w.mode? = some .onWrite ∨ w.mode? = some (.onTrigger 14))) ∧
    (let c := capt 1 0x1000E false false
     let s := draining (put up 1 onTrigger) [.write c]
     Draining s (.write c) [] ∧ MemoryLaw s ∧ s.win 1 = some onTrigger ∧
       2 * c.addr.toNat - onTrigger.defn.base = 14 ∧ (c.low && c.goodLow) = false ∧ (c.high && c.goodHigh) = false) := by
  refine ⟨fun w h => ⟨⟨rfl, rfl⟩, ⟨rfl, rfl, rfl⟩, win_put up 1 w, ?_⟩,
    ⟨by decide, rfl⟩, ⟨rfl, rfl, rfl⟩, win_put up 1 onTrigger, by decide +kernel⟩
  simp only [List.mem_cons, List.not_mem_nil, or_false] at h
  rcases h with rfl | rfl <;> decide

theorem witness_TriggerWriteCopies :
    let c := capt 1 0x1000E true false
    let s := draining (put up 1 onTrigger) [.write c]
    Draining s (.write c) [] ∧ MemoryLaw s ∧ s.win 1 = some onTrigger ∧ onTrigger.state = .live ∧ onTrigger.fence = 0 ∧
      onTrigger.mode? = some (.onTrigger 14) ∧ 2 * c.addr.toNat - onTrigger.defn.base = 14 ∧
      (c.low && c.goodLow || c.high && c.goodHigh) = true ∧ 14 < 16 * onTrigger.granules ∧
      (onTrigger.mapA ++ onTrigger.mapB).Nodup ∧ onTrigger.mapA.length = onTrigger.granules ∧
      onTrigger.mapB.length = onTrigger.granules ∧ onTrigger.pub.dirty.length = onTrigger.granules ∧
      onTrigger.pub.filled.length = onTrigger.granules ∧ onTrigger.pub.states.length = onTrigger.granules := by
  refine ⟨⟨by decide, rfl⟩, ⟨rfl, rfl, rfl⟩, win_put up 1 onTrigger, by decide +kernel⟩

/-- Offsets 0 and 0xFE of window 0. -/
theorem witness_DrainWritesWindowZero : ∀ k ∈ [0, 0xFE],
    let c := capt 0 (0x0FFF00 + k) true false
    let s := draining up [.write c]
    Draining s (.write c) [] ∧ MemoryLaw s ∧ c.win = 0 ∧ 2 * c.addr.toNat = win0Base s.straps.mb + k := by
  intro k h
  refine ⟨⟨by rfl, rfl⟩, ⟨rfl, rfl, rfl⟩, rfl, ?_⟩
  revert k; decide +kernel

/-- A command word with good and with bad lanes, in READY, BUSY and DONE. -/
theorem witness_CommandWordIsHandled : ∀ good, ∀ state ∈ [MailboxState.ready, .busy, .done],
    let c := capt 0 0x0FFF00 good true
    let s := { draining up [.write c] with mbox := { up.mbox with state := state } }
    Draining s (.write c) [] ∧ MemoryLaw s ∧ c.win = 0 ∧ 2 * c.addr.toNat = win0Base s.straps.mb := by
  unfold Draining MemoryLaw; decide +kernel

/-- R45, R52: what the change of a loss makes of each publication state, with no queue request. -/
theorem test_loss_moves_states :
    let w := { wide with pub := { wide.pub with states := [.idle, .wanted, .waiting, .inFlight, .inFlightAgain] } }
    (match exec .drainStep (draining (put up 1 w) [.loss 2]) with
      | .next t => some ((t.win 1).map fun v => v.pub.states, t.journal.entries)
      | _ => none) = some (some [.wanted, .wanted, .waiting, .inFlightAgain, .inFlightAgain], []) := by decide +kernel

theorem witness_LossEntryIsApplied : ∀ state ∈ [MailboxState.ready, .busy, .done, .fail],
    let s := { draining (put up 1 onWrite) [.loss 3] with mbox := { up.mbox with state := state } }
    Draining s (.loss 3) [] ∧ s.win 1 = some onWrite ∧ (3 : BitVec 32).getLsbD 0 = true ∧
      (3 : BitVec 32).getLsbD 1 = true ∧ onWrite.state = .live ∧ onWrite.isPublish = true ∧ onWrite.fence = 0 :=
  fun _ _ => ⟨⟨rfl, rfl⟩, win_put up 1 onWrite, by decide⟩

/-- A learning request for the last word of window 1. -/
def request : LearnRequest := { win := 1, addr := BitVec.ofNat 23 0x8007, data := 0x1234, low := true, high := true }

/-- A step that took a learning request alone, for a LIVE PUBLISH window, with an entry that came since, and for an IDLE one;
and a step that took one with an entry. -/
theorem witness_LearningFillsUnknownBytes :
    let alone := fun w => { put up 1 w with
      port := some (.drain { learn := some request, entry := false }), tap := { up.tap with fifo := [.loss 3] } }
    (alone onWrite).port = some (.drain { learn := some request, entry := false }) ∧
      MemoryLaw (alone onWrite) ∧ (alone onWrite).win 1 = some onWrite ∧ onWrite.state = .live ∧
      onWrite.isPublish = true ∧
      (∀ v, (alone { onWrite with state := .idle }).win 1 = some v → v.state ≠ .live ∨ v.isPublish = false) ∧
      ∃ s : State, s.port = some (.drain { learn := some request, entry := true }) ∧ s.tap.fifo = .loss 3 :: [] :=
  ⟨by decide, by unfold MemoryLaw; decide, win_put up 1 onWrite, rfl, rfl,
    fun v e => .inl (by obtain rfl := idle_win (n := 1) e; decide),
    { up with port := some (.drain { learn := some request, entry := true }), tap := { up.tap with fifo := [.loss 3] } },
    rfl, rfl⟩

/-- R19, R39: the grant that begins a drain step takes the request held, so a read during the step is learned in the next
one, and so is an entry captured then: the step's end leaves the entry in the FIFO and begins the step that takes both. -/
theorem test_step_takes_at_its_grant :
    let s := ({ put up 1 onWrite with tap := { up.tap with learn := some request } } : State).arbitrate
    (s.port, s.tap.learn) = (some (.drain { learn := some request, entry := false }), none) ∧
    (match exec (.cPortWrite (at_ 0x10000 0x5678)) s with
      | .next t =>
        let u := { t with tap := { t.tap with learn := some { request with data := 0 } } }
        (match exec .drainStep u with
          | .next v => some (v.tap.fifo.length, v.counter .learned, v.tap.learn, v.port)
          | _ => none)
      | _ => none) =
      some (1, 2, none, some (.drain { learn := some { request with data := 0 }, entry := true })) := by
  decide +kernel

theorem witness_AlertClearWrite :
    let c := capt 1 0x10030 true false
    let s := draining (put up 1 statusWin) [.write c]
    Draining s (.write c) [] ∧ s.tap.loss = 0 ∧ s.win 1 = some statusWin ∧ statusWin.state = .live ∧
      statusWin.fence = 0 ∧ statusWin.isStatus = true ∧ 2 * c.addr.toNat - statusWin.defn.base = 0x30 :=
  ⟨⟨by decide, rfl⟩, rfl, win_put up 1 statusWin, by decide +kernel⟩

theorem busWords_length (words : List Word) : (words.flatMap busWord).length = 2 * words.length := by
  induction words with
  | nil => rfl
  | cons w l ih => simp only [List.flatMap_cons, List.length_append, ih, List.length_cons, busWord, List.length_nil]; omega

theorem busWords_getD (words : List Word) (k : Nat) :
    (words.flatMap busWord).getD (2 * k) 0 = lowByte (words.getD k 0) ∧
    (words.flatMap busWord).getD (2 * k + 1) 0 = highByte (words.getD k 0) := by
  induction words generalizing k with
  | nil => simp [lowByte, highByte]
  | cons w l ih =>
    cases k with
    | zero => exact ⟨rfl, rfl⟩
    | succ k => exact ih k

theorem joinBytes_split (w : Word) : joinBytes (highByte w) (lowByte w) = w := by
  unfold joinBytes highByte lowByte
  ext i hi
  simp only [BitVec.getElem_append, BitVec.getElem_extractLsb']
  split
  · simp only [Nat.zero_add, BitVec.getLsbD_eq_getElem hi]
  · rw [show 8 + (i - 8) = i by omega, BitVec.getLsbD_eq_getElem hi]

/-- What a parameter word of `busy` reads as. -/
theorem word_busy (s : State) (code : Word) (words : List Word) (h : s.win0.mem = []) (k : Nat) :
    (busy s code words).word (k + 1) = (words.getD k 0).toNat := by
  have r : ∀ b, Memory.read 0 (Memory.writeAll 0 s.win0.mem 2 (words.flatMap busWord)) (2 + b) =
      (words.flatMap busWord).getD b 0 := by
    intro b
    rw [h, Memory.read_writeAll _ _ _ (by rfl)]
    split
    · rw [Nat.add_sub_cancel_left]
    · rw [List.getD_eq_default _ _ (by omega)]; rfl
  have a := r (2 * k)
  have b := r (2 * k + 1)
  rw [(busWords_getD words k).1] at a
  rw [(busWords_getD words k).2] at b
  unfold State.word State.win0Word
  rw [show 2 * (k + 1) = 2 + 2 * k by omega, show 2 + 2 * k + 1 = 2 + (2 * k + 1) by omega]
  show (joinBytes (Memory.read 0 (Memory.writeAll 0 s.win0.mem 2 (words.flatMap busWord)) (2 + (2 * k + 1)))
    (Memory.read 0 (Memory.writeAll 0 s.win0.mem 2 (words.flatMap busWord)) (2 + 2 * k))).toNat = _
  rw [a, b, joinBytes_split]

/-! ### Witnesses: mailbox commands -/

theorem due_busy (s : State) (code : Word) (words : List Word) : CommandDue code (busy s code words) :=
  ⟨rfl, rfl, rfl, rfl⟩

theorem good_busy (s : State) (code : Word) (words : List Word) (k : Nat)
    (h : s.win0.bad = List.replicate 128 false) : GoodParams k (busy s code words) := by
  intro i _ _
  show s.win0.bad.getD i false = false
  rw [h, List.getD_eq_getElem?_getD, List.getElem?_replicate]
  split <;> rfl

theorem word_up (code : Word) (words : List Word) (k : Nat) :
    (busy up code words).word (k + 1) = (words.getD k 0).toNat := word_busy up code words rfl k

theorem word_put (n : WinNo) (w : Window) (code : Word) (words : List Word) (k : Nat) :
    (busy (put up n w) code words).word (k + 1) = (words.getD k 0).toNat := word_busy (put up n w) code words rfl k

/-- A command with parameters at its snapshot, window 1 as given. -/
theorem due_put (code : Word) (words : List Word) (w : Window) :
    CommandDue code (busy (put up 1 w) code words) ∧ ∀ k, GoodParams k (busy (put up 1 w) code words) :=
  ⟨due_busy _ _ _, fun k => good_busy _ _ _ k rfl⟩

theorem busy_put (n : WinNo) (w : Window) (code : Word) (words : List Word) :
    (busy (put up n w) code words).win n = some w := win_put up n w

theorem busy_up (n : WinNo) (code : Word) (words : List Word) : (busy up code words).win n = none := no_places up rfl n

theorem busy_idle {n : WinNo} {w v : Window} {code : Word} {words : List Word}
    (h : (busy (put up n w) code words).win n = some v) : v = w := by
  rw [busy_put] at h; cases h; rfl

/-- The same with no window. -/
theorem due_up (code : Word) (words : List Word) :
    CommandDue code (busy up code words) ∧ ∀ k, GoodParams k (busy up code words) :=
  ⟨due_busy _ _ _, fun k => good_busy _ _ _ k rfl⟩

/-- An unknown code; SETW with its last parameter word bad; and a QRYW that completes at the end of its snapshot's grant, leaving
the port to the Drain Engine, to the Frame Engine and to no one. -/
theorem witness_ChecksBeforeTheCommand : CommandDue 0x7F01 (busy up 0x7F01 []) ∧
    (let s := { busy up 0xA101 [] with win0 := { up.win0 with bad := up.win0.bad.set 16 true } }
     CommandDue 0xA101 s ∧ s.win0.bad.getD 16 false = true ∧ GoodParams 15 s) ∧
    (∀ x ∈ [([FifoEntry.loss 3], [], some (PortGrant.drain { learn := none, entry := true })),
        ([], [{ win := 1, first := 0, last := 0, bestEffort := false, ofFrame := false, purged := false : ReadJob }], some .frame),
        ([], [], none)],
      let s := { busy up 0xA105 [1] with tap := { up.tap with fifo := x.1 }, fe := { up.fe with reads := x.2.1 } }
      CommandDue 0xA105 s ∧ ∃ t : State, exec .qryw s = .next t ∧ t.port = x.2.2) ∧
    (let s := { busy (put up 1 onWrite) 0xA103 [1] with tap := { up.tap with fifo := [.loss 3] } }
     CommandDue 0xA103 s ∧ (s.snapped .checks).arbitrate.port = some (.drain { learn := none, entry := true })) := by
  refine ⟨(due_up _ _).1, ⟨(due_up 0xA101 []).1, by decide, ?_⟩, fun x h => ⟨(due_up 0xA105 [1]).1, ?_⟩,
    due_busy (put up 1 onWrite) 0xA103 [1], by decide +kernel⟩
  · intro i a b
    have : ∀ i : Fin 16, ((List.replicate 128 false).set 16 true).getD i.val false = false := by decide
    exact this ⟨i, by omega⟩
  · simp only [List.mem_cons, List.not_mem_nil, or_false] at h
    rcases h with rfl | rfl | rfl
    · exact ⟨_, rfl, by decide +kernel⟩
    · exact ⟨_, rfl, by decide +kernel⟩
    · exact ⟨_, rfl, by decide +kernel⟩

/-- R148: a DRAIN_STEP that comes before QRYW's own row finds it complete, so the command word it brings is taken. -/
theorem test_drain_after_qryw :
    let c : Captured := { win := 0, addr := 0x07FF80, data := 0xA204, low := true, high := true, goodLow := true, goodHigh := true }
    let s := { busy up 0xA105 [1] with tap := { up.tap with fifo := [.write c] } }
    (match exec .drainStep s with
      | .next t => decide (t.mbox.overrun = false ∧ t.mbox.state = .busy ∧ t.mbox.code = 0xA204 ∧ t.mbox.prevCommand = 0xA105)
      | _ => false) = true := by decide +kernel

/-- Window numbers 0, 32 and 31; an IDLE and a LIVE window 1. -/
theorem witness_WindowCommandsRefuse :
    (∀ k ∈ [0, 32], CommandDue 0xA102 (busy up 0xA102 [k]) ∧ GoodParams 1 (busy up 0xA102 [k]) ∧
      ((busy up 0xA102 [k]).word 1 = 0 ∨ 31 < (busy up 0xA102 [k]).word 1)) ∧
    (CommandDue 0xA102 (busy up 0xA102 [31]) ∧ (busy up 0xA102 [31]).word 1 = (31 : WinNo).val ∧
      ∀ w, (busy up 0xA102 [31]).win 31 = some w → w.state ≠ .idle) ∧
    (CommandDue 0xA103 (busy (put up 1 { onWrite with state := .idle }) 0xA103 [1]) ∧
      ∀ w, (busy (put up 1 { onWrite with state := .idle }) 0xA103 [1]).win 1 = some w → w.state ≠ .live) ∧
    (CommandDue 0xA101 (busy (put up 1 onWrite) 0xA101 [1]) ∧ GoodParams 16 (busy (put up 1 onWrite) 0xA101 [1]) ∧
      ∀ w, (busy (put up 1 onWrite) 0xA101 [1]).win 1 = some w → w.state ≠ .idle) := by
  refine ⟨fun k h => ⟨(due_up _ _).1, (due_up _ _).2 1, ?_⟩, ⟨(due_up _ _).1, by rw [word_up]; decide, fun w h => ?_⟩,
    ⟨(due_put _ _ _).1, fun w h => ?_⟩, (due_put _ _ _).1, (due_put _ _ _).2 16, fun w h => ?_⟩
  · rw [word_up]; simp only [List.mem_cons, List.not_mem_nil, or_false] at h; rcases h with rfl | rfl <;> decide
  · rw [busy_up] at h; cases h
  · obtain rfl := busy_idle h; decide
  · obtain rfl := busy_idle h; decide

/-- SETW with kind 0, 4 and a bad base, a bad length, a range that meets window 0, and one that meets window 1. -/
theorem witness_SetwRefuses :
    (∀ k ∈ [0, 4], (busy up 0xA101 [2, k]).word 2 = 0 ∨ 3 < (busy up 0xA101 [2, k]).word 2) ∧
    (let s := busy up 0xA101 [2, 1, 8]
     ¬ (s.word 2 = 0 ∨ 3 < s.word 2) ∧ s.word 2 ≠ 3 ∧ s.word 3 % 16 ≠ 0) ∧
    (∀ len ∈ [0, 4112], let s := busy up 0xA101 [2, 1, 0, 2, len]
      s.word 2 ≠ 3 ∧ s.word 3 % 16 = 0 ∧ (s.word 5 < 16 ∨ 4096 < s.word 5)) ∧
    (let s := busy up 0xA101 [2, 1, 0xFEF0, 0x0F, 32]
     (s.word 3 + 0x10000 * s.word 4 < win0Base s.straps.mb + 256 ∧
       win0Base s.straps.mb < s.word 3 + 0x10000 * s.word 4 + s.word 5)) ∧
    (let s := busy (put up 1 onWrite) 0xA101 [2, 1, 0xFFF0, 0, 32]
     s.win 1 = some onWrite ∧ s.word 3 + 0x10000 * s.word 4 < onWrite.defn.base + onWrite.defn.length ∧
       onWrite.defn.base < s.word 3 + 0x10000 * s.word 4 + s.word 5) := by
  simp only [word_up, word_put]
  exact ⟨by simp, by decide, by simp, by decide +kernel, busy_put 1 onWrite _ _, by decide⟩

/-- SETW with topics 0 and 1024, with the topic of window 1, and with its first bad field the class or the start-enabled word. -/
theorem witness_SetwRefusesFields :
    (∀ topic ∈ [0, 1024], let s := busy up 0xA101 [2, 1, 0, 2, 16, topic]
     s.word 2 ≠ 3 ∧ (s.word 6 = 0 ∨ 1023 < s.word 6)) ∧
    (let s := busy (put up 1 onWrite) 0xA101 [2, 1, 0, 2, 16, 5]
     s.win 1 = some onWrite ∧ s.word 2 = 1 ∧
       ∃ p, onWrite.defn.body = .publish p ∧ p.topic = s.word 6) ∧
    (let s := busy up 0xA101 [2, 1, 0, 2, 16, 5, 4]
     s.fieldBad 7 ∧ ∀ i, i < 7 → ¬ s.fieldBad i) ∧
    (let s := busy up 0xA101 [2, 1, 0, 2, 16, 5, 3, 1, 14, 255, 0, 0, 0, 0, 0, 2]
     s.fieldBad 16 ∧ ∀ i, i < 16 → ¬ s.fieldBad i) := by
  refine ⟨?_, ⟨busy_put 1 onWrite _ _, ?_, _, rfl, ?_⟩, ⟨?_, fun i h => ?_⟩, ?_, fun i h => ?_⟩
  · simp [word_up]
  · rw [word_put]; decide
  · rw [word_put]; decide
  · unfold State.fieldBad; simp [word_up]
  · unfold State.fieldBad; interval_cases i <;> simp [word_up]
  · unfold State.fieldBad; simp [word_up]
  · unfold State.fieldBad; interval_cases i <;> simp [word_up]

/-- One granule, PUBLISH ON_WRITE, for window 31 of an empty table; and the same for a part with no free granule. -/
def setwWords : List Word := [31, 1, 0, 2, 16, 1023, 3, 0, 0, 255]

def setwDefn : Definition :=
  { base := 0x20000, length := 16, startEnabled := false
    body := .publish { topic := 1023, cls := 3, mode := .onWrite, refresh := 255 } }

theorem setw_spells (s : State) (h : s.win0.mem = []) : Spells (busy s 0xA101 setwWords) 31 setwDefn := by
  unfold Spells
  simp only [word_busy s _ _ h, setwDefn]
  decide

theorem setw_fits : setwDefn.rangeOk 0 ∧ setwDefn.fieldsOk :=
  ⟨by unfold Definition.rangeOk; decide +kernel, by decide, by decide, by decide, by decide, fun k h => by cases h⟩

theorem none_up (s : State) (code : Word) (words : List Word) (h : s.places = Vector.replicate 32 none) {m : WinNo}
    {w : Window} (e : (busy s code words).win m = some w) : False := by
  have : s.win m = some w := e
  rw [no_places s h] at this; cases this

theorem witness_SetwInstalls : let s := busy up 0xA101 setwWords
    CommandDue 0xA101 s ∧ GoodParams 16 s ∧ (31 : WinNo) ≠ 0 ∧ (∀ w, s.win 31 = some w → w.state = .idle) ∧
      Spells s 31 setwDefn ∧ Fits s 31 setwDefn := by
  refine ⟨(due_up _ _).1, (due_up _ _).2 16, by decide, fun w e => (none_up up _ _ rfl e).elim, setw_spells up rfl,
    setw_fits.1, setw_fits.2, fun m w _ e => (none_up up _ _ rfl e).elim, by decide⟩

theorem witness_SetwNeedsRoom : let s := busy { up with pool := { mem := [], free := [], usable := true } } 0xA101 setwWords
    CommandDue 0xA101 s ∧ GoodParams 16 s ∧ Spells s 31 setwDefn ∧ setwDefn.rangeOk s.straps.mb ∧ setwDefn.fieldsOk ∧
      (∀ m w, m ≠ 31 → s.win m = some w → setwDefn.apart w.defn ∧ setwDefn.body.clashes w.defn.body = false) ∧
      s.pool.free.length + (s.heldBy 31).length < setwDefn.cost := by
  refine ⟨due_busy _ _ _, good_busy _ _ _ _ rfl, setw_spells _ rfl, setw_fits.1, setw_fits.2,
    fun m w _ e => (none_up _ _ _ rfl e).elim, by decide⟩

/-- A grouped SUBSCRIBE window in either role of its maps. -/
def swapped (b : Bool) : Window :=
  let w := live (subBody .hold false 1) [2, 3]
  { w with ov := { w.ov with swapped := b } }

/-- One granule left to clear, and two; an ON_WRITE, an ON_TRIGGER and a grouped SUBSCRIBE window, either image. -/
theorem witness_GranuleIsCleared : ∀ rest ∈ [[], [{ win := 1, second := true, gran := 0 : ClearItem }]],
    ∀ w ∈ [onWrite, onTrigger, swapped false, swapped true], ∀ second,
    let v := { w with state := .idle }
    let c : ClearItem := { win := 1, second := second, gran := 0 }
    let s := { put up 1 v with
      port := some .mailbox, mbox := { up.mbox with state := .busy, work := .clearing (c :: rest) [] } }
    s.port = some .mailbox ∧ s.mbox.work = .clearing (c :: rest) [] ∧ s.win 1 = some v ∧ MemoryLaw s :=
  fun _ _ w _ _ => ⟨rfl, rfl, win_put up 1 { w with state := .idle }, ⟨rfl, rfl, rfl⟩⟩

/-- R90, R31: a window goes LIVE with its overlay map active. -/
theorem test_live_overlay_active :
    ((put up 1 { swapped true with state := .pending }).goLive 1).win 1 = some (swapped false) := by decide +kernel

/-- An IDLE window for ENBW; an ungrouped and a grouped LIVE window for DISW, with and without a staging. -/
theorem witness_EnableAndDisable :
    (let w := { onWrite with state := .idle }; let s := busy (put up 1 w) 0xA102 [1]
     CommandDue 0xA102 s ∧ GoodParams 1 s ∧ s.word 1 = (1 : WinNo).val ∧ s.win 1 = some w ∧ w.state = .idle) ∧
    (∀ g : GroupNo, let w := live (subBody .hold false g) [2, 3]; let s := busy (put up 1 w) 0xA103 [1]
     CommandDue 0xA103 s ∧ GoodParams 1 s ∧ s.word 1 = (1 : WinNo).val ∧ s.win 1 = some w ∧ w.state = .live ∧
       w.group = g ∧ s.groups[g].staging = none) := by
  refine ⟨⟨(due_put _ _ _).1, (due_put _ _ _).2 1, by rw [word_put]; decide, busy_put 1 _ _ _, rfl⟩, fun g => ?_⟩
  refine ⟨(due_put _ _ _).1, (due_put _ _ _).2 1, by rw [word_put]; decide, busy_put 1 _ _ _, rfl, rfl, ?_⟩
  show (Vector.replicate 8 Group.reset)[g].staging = none
  simp [Group.reset]

theorem witness_DelwFreesThePlace : ∀ state ∈ [WindowState.idle, .live],
    let s := busy (put up 1 { onWrite with state := state }) 0xA104 [1]
    CommandDue 0xA104 s ∧ GoodParams 1 s ∧ s.word 1 = (1 : WinNo).val ∧
      s.win 1 = some { onWrite with state := state } ∧ s.win 2 = none :=
  fun _ _ => ⟨(due_put _ _ _).1, (due_put _ _ _).2 1, by rw [word_put]; decide, busy_put 1 _ _ _, rfl⟩

/-- A LIVE PUBLISH window, a LIVE one of another kind, and an IDLE one. -/
theorem witness_PushGivesChanges : ∀ w ∈ [onWrite, statusWin, { onWrite with state := .idle }],
    let s := busy (put up 1 w) 0xA106 [1]
    CommandDue 0xA106 s ∧ GoodParams 1 s ∧ s.word 1 = (1 : WinNo).val ∧ s.win 1 = some w :=
  fun _ _ => ⟨(due_put _ _ _).1, (due_put _ _ _).2 1, by rw [word_put]; decide, busy_put 1 _ _ _⟩

theorem witness_QrywAndNbrsReport :
    (∀ w ∈ [onWrite, live (subBody .hold false 7) [2, 3], statusWin], let s := busy (put up 1 w) 0xA105 [1]
     CommandDue 0xA105 s ∧ GoodParams 1 s ∧ s.word 1 = (1 : WinNo).val ∧ s.win 1 = some w) ∧
    CommandDue 0xA206 (busy up 0xA206 []) :=
  ⟨fun _ _ => ⟨(due_put _ _ _).1, (due_put _ _ _).2 1, by rw [word_put]; decide, busy_put 1 _ _ _⟩, (due_up _ _).1⟩

/-- The whole of a 16-byte window, a range past its end, an image it does not hold; and the last read of each image. -/
theorem witness_PeekReadsAnImage :
    (∀ words ∈ [[1, 0, 0, 16], [1, 0, 16, 16], [1, 1, 0, 16]], let s := busy (put up 1 onWrite) 0xA107 words
     CommandDue 0xA107 s ∧ GoodParams 4 s ∧ s.word 1 = (1 : WinNo).val ∧ s.win 1 = some onWrite) ∧
    (∀ p ∈ [(0, onWrite), (1, onTrigger), (2, live (subBody .hold false 0) [3]), (3, live (subBody .hold false 1) [2, 3])],
     let j : PeekJob := { win := 1, image := p.1, todo := [0], bytes := [], flags := [] }
     let s := { put up 1 p.2 with port := some .mailbox, mbox := { up.mbox with state := .busy, work := .peek j } }
     s.port = some .mailbox ∧ s.mbox.work = .peek j ∧ s.win 1 = some p.2 ∧ (p.2.image p.1).isSome = true) := by
  refine ⟨fun words h => ⟨(due_put _ _ _).1, (due_put _ _ _).2 4, ?_, busy_put 1 _ _ _⟩,
    fun p h => ⟨rfl, rfl, win_put up 1 _, ?_⟩⟩
  · simp only [List.mem_cons, List.not_mem_nil, or_false] at h
    rcases h with rfl | rfl | rfl <;> (rw [word_put]; decide)
  · simp only [List.mem_cons, List.not_mem_nil, or_false] at h
    rcases h with rfl | rfl | rfl | rfl <;> rfl

/-- Every word at the top of its range, every word at its foot, the first word and the last word out of range. -/
theorem witness_SetidSetsIdentity :
    (∀ words ∈ [[127, 200, 8, 16, 255, 15, 255, 255, 8, 15, 255, 16, 16, 1023],
        [0, 0, 1, 1, 0, 1, 0, 0, 1, 1, 1, 0, 0, 0]], let s := busy up 0xA201 words
     CommandDue 0xA201 s ∧ GoodParams 14 s ∧ s.link.state = .off ∧ ∀ k, 1 ≤ k → k ≤ 14 → SetidRange k (s.word k)) ∧
    ¬ SetidRange 1 ((busy up 0xA201 [128]).word 1) ∧
    (let s := busy up 0xA201 [0, 0, 1, 1, 0, 1, 0, 0, 1, 1, 1, 0, 0, 1024]
     ¬ SetidRange 14 (s.word 14) ∧ ∀ i, 1 ≤ i → i < 14 → SetidRange i (s.word i)) := by
  refine ⟨fun words h => ⟨(due_up _ _).1, (due_up _ _).2 14, rfl, ?_⟩, by rw [word_up]; simp [SetidRange], ?_⟩
  · simp only [List.mem_cons, List.not_mem_nil, or_false] at h
    intro k a b
    rcases h with rfl | rfl <;> interval_cases k <;> rw [word_up] <;> simp [SetidRange]
  · refine ⟨by rw [word_up]; simp [SetidRange], fun i a b => ?_⟩
    interval_cases i <;> rw [word_up] <;> simp [SetidRange]

/-- Car numbers 0, 1 and 127 with the link OFF; the link on. -/
theorem witness_JoinLeaveHoldAndResume :
    (∀ car ∈ [0, 1, 127], let s := busy { up with link := { up.link with car := car } } 0xA202 []
     CommandDue 0xA202 s ∧ s.link.state = .off ∧ s.link.car = car) ∧
    (∀ code ∈ [0xA202, 0xA203], let s := busy { up with link := { up.link with state := .search } } code []
     CommandDue code s ∧ s.link.state ≠ .off) ∧
    ∀ code ∈ [0xA203, 0xA204, 0xA205], CommandDue code (busy up code []) ∧ (busy up code []).link.state = .off :=
  ⟨fun _ _ => ⟨due_busy _ _ _, rfl, rfl⟩,
   fun _ _ => ⟨due_busy _ _ _, by intro h; cases h⟩, fun _ _ => ⟨(due_up _ _).1, rfl⟩⟩

/-- The clear flag 0, 1 and 2; sets and flags at and past the ends of their ranges. -/
theorem witness_CountersAndAlertSets :
    (∀ k ∈ [0, 1, 2], CommandDue 0xA301 (busy up 0xA301 [k]) ∧ GoodParams 1 (busy up 0xA301 [k]) ∧
      (busy up 0xA301 [k]).word 1 = k.toNat) ∧
    (∀ words ∈ [[4095, 4095, 1, 4095], [4096], [0, 4096], [0, 0, 2], [0, 0, 1, 4096]],
      CommandDue 0xA302 (busy up 0xA302 words) ∧ GoodParams 4 (busy up 0xA302 words)) ∧
    (busy up 0xA302 [4095, 4095, 1, 4095]).word 4 < 4096 ∧ 4096 ≤ (busy up 0xA302 [0, 0, 1, 4096]).word 4 :=
  ⟨fun k h => ⟨(due_up _ _).1, (due_up _ _).2 1, by
      rw [word_up]; simp only [List.mem_cons, List.not_mem_nil, or_false] at h; rcases h with rfl | rfl | rfl <;> rfl⟩,
   fun _ _ => ⟨(due_up _ _).1, (due_up _ _).2 4⟩, by rw [word_up]; decide, by rw [word_up]; decide⟩

theorem witness_SavedProfileReadsBack : let s := busy (put up 31 { onWrite with state := .idle }) 0xA401 []
    CommandDue 0xA401 s ∧ (∀ k, 2 ≤ k → k ≤ 14 → SetidRange k ([s.params.f, s.params.s, s.params.w, s.params.p,
      s.params.d, s.params.u, s.params.hm, s.params.k, s.params.ls, s.params.hl, s.params.kp, s.params.ki,
      s.params.lam].getD (k - 2) 0)) ∧ s.link.car ≤ 127 := by
  refine ⟨due_busy _ _ _, fun k a b => ?_, by decide⟩
  interval_cases k <;> simp [SetidRange] <;> decide

/-- A VALID store with one definition, in its memory. -/
theorem witness_StoreReads :
    let s := starting .startUp store31
    (∃ m, s.store = .holds m) ∧ ∃ p, s.storedProfile = some p ∧ p.defns.map RawDefn.number = [31] :=
  ⟨⟨_, rfl⟩, _, if_pos store31_valid, store31_number⟩

/-- R181: the fields of a stored definition whose 24 bytes are 1 to 24. -/
theorem test_definition_layout :
    let bytes := (List.range 24).map fun i => BitVec.ofNat 8 (i + 1)
    let r : RawDefn := {
      number := 1, kind := 2, base := 0x030405, length := 0x0607, topic := 0x0809, cls := 0x0A, mode := 0x0B, trigger := 0x0C0D
      refresh := 0x0E, hold := 0x0F, action := 0x10, fallback := 0x1112, release := 0x13, group := 0x14, start := 0x15 }
    (Memory.writeAll 0xFF [] 25 bytes).definition 0 = r ∧ storedDefn bytes 0 = r := by decide +kernel

/-- R181: an ON_TRIGGER and a FALLBACK definition of place 7 in their 24 bytes; spare bytes and fields not held are open. -/
theorem test_definition_stored :
    ({ base := 0x012340, length := 0x120, startEnabled := true
       body := .publish { topic := 0x3FF, cls := 2, mode := .onTrigger 0x11E, refresh := 9 } } : Definition).stored 7 =
      [7, 1, 1, 0x23, 0x40, 1, 0x20, 3, 0xFF, 2, 1, 1, 0x1E, 9].map some ++ List.replicate 6 none ++ [some 1] ++
        List.replicate 3 none ∧
    ({ base := 0x012340, length := 0x10, startEnabled := false
       body := .subscribe { topic := 5, hold := 3, action := .fallback 0x1234, releaseOnWrite := true, group := 0 } } :
        Definition).stored 7 =
      [7, 2, 1, 0x23, 0x40, 0, 0x10, 0, 5].map some ++ List.replicate 5 none ++ [3, 1, 0x12, 0x34, 1, 0, 0].map some ++
        List.replicate 3 none := by decide +kernel

theorem witness_FailedProfileWrite :
    let s := { up with mbox := { up.mbox with state := .busy, work := .psav [1, 2] } }
    s.mbox.work = .psav [1, 2] ∧ ([1, 3] : List Byte) ≠ [1, 2] := by decide

/-- PLOD with a VALID store, of no definition and of one, and no window in use; with a LIVE window; with the link on; with the
store condition not VALID. -/
theorem witness_PlodChecksAndInstalls :
    (∀ x ∈ [(Store.ofBytes (profile 127), []), (store31, [31])],
     let s := busy { up with store := x.1, status := { up.status with store := .valid } } 0xA402 []
     CommandDue 0xA402 s ∧ ¬ s.someInUse ∧ s.link.state = .off ∧ s.status.store = .valid ∧
       ∃ p, s.storedProfile = some p ∧ p.defns.map RawDefn.number = x.2) ∧
    (CommandDue 0xA402 (busy (put up 31 onWrite) 0xA402 []) ∧ (busy (put up 31 onWrite) 0xA402 []).someInUse) ∧
    (let s := busy { up with link := { up.link with state := .starting } } 0xA402 []
     CommandDue 0xA402 s ∧ ¬ s.someInUse ∧ s.link.state ≠ .off) ∧
    (CommandDue 0xA402 (busy up 0xA402 []) ∧ ¬ (busy up 0xA402 []).someInUse ∧
      (busy up 0xA402 []).status.store ≠ .valid) := by
  refine ⟨fun x h => ⟨due_busy _ _ _, fun ⟨n, w, _, e, _⟩ => none_up _ _ _ rfl e, rfl, rfl, ?_⟩,
    ⟨due_busy _ _ _, 31, onWrite, by decide, busy_put 31 _ _ _, by decide⟩,
    ⟨due_busy _ _ _, ?_, by intro h; cases h⟩, (due_up _ _).1, ?_, by decide⟩
  · simp only [List.mem_cons, List.not_mem_nil, or_false] at h
    rcases h with rfl | rfl
    · exact ⟨_, if_pos profile_valid.1, by decide +kernel⟩
    · exact ⟨_, if_pos store31_valid, store31_number⟩
  all_goals exact fun ⟨n, w, _, e, _⟩ => none_up _ _ _ rfl e

/-- Minors 1 and 3, a window in use, an unusable pool; each operation, at granules 0 and 2047. -/
theorem witness_PoolTestRuns :
    (∀ k ∈ [1, 3], CommandDue 0xA501 (busy up 0xA501 [k]) ∧ GoodParams 1 (busy up 0xA501 [k]) ∧
      (busy up 0xA501 [k]).word 1 = k.toNat ∧ ¬ (busy up 0xA501 [k]).someInUse) ∧
    (CommandDue 0xA501 (busy (put up 1 onWrite) 0xA501 [1]) ∧ (busy (put up 1 onWrite) 0xA501 [1]).someInUse) ∧
    (let s := busy { up with pool := { mem := [], free := [], usable := false } } 0xA501 [1]
     CommandDue 0xA501 s ∧ GoodParams 1 s ∧ ¬ s.someInUse ∧ s.pool.usable = false) ∧
    (∀ gran ∈ [0, 2047], ∀ op ∈ [0, 1, 2, 3, 4],
      let j : PoolTest := { gran := gran, op := op, bad := false, fails := 0, lowest := none }
      let s := { up with port := some .mailbox, mbox := { up.mbox with state := .busy, work := .poolTest j } }
      s.port = some .mailbox ∧ s.mbox.work = .poolTest j ∧ MemoryLaw s) := by
  refine ⟨fun k h => ⟨(due_up _ _).1, (due_up _ _).2 1, by
      rw [word_up]; simp only [List.mem_cons, List.not_mem_nil, or_false] at h; rcases h with rfl | rfl | rfl <;> rfl, fun ⟨n, w, _, e, _⟩ => none_up _ _ _ rfl e⟩,
    ⟨(due_put _ _ _).1, 1, onWrite, by decide, busy_put 1 _ _ _, by decide⟩,
    ⟨due_busy _ _ _, good_busy _ _ _ _ rfl, fun ⟨n, w, _, e, _⟩ => none_up _ _ _ rfl e, rfl⟩,
    fun _ _ _ _ => ⟨rfl, rfl, ⟨rfl, rfl, rfl⟩⟩⟩

theorem witness_BusTest : CommandDue 0xA501 (busy up 0xA501 [2]) ∧ GoodParams 1 (busy up 0xA501 [2]) ∧
    (busy up 0xA501 [2]).word 1 = 2 := ⟨(due_up _ _).1, (due_up _ _).2 1, by rw [word_up]; decide⟩

/-! ### Witnesses: timer events -/

/-- Shares of an event left to take. -/
def owing (s : State) (l : List Duty) : State := { s with due := l }

theorem owes (s : State) (d : Duty) (h : s.held = false) : Due (owing s [d]) d :=
  ⟨h, List.mem_singleton.2 rfl, fun k x hx => by rw [List.mem_singleton.1 hx]; exact k,
    fun k x hx => by rw [List.mem_singleton.1 hx]; rcases k with rfl | rfl <;> rfl⟩

/-- The link in a state with a neighbour table. -/
def linked (s : State) (state : LinkState) (table : List Neighbour) : State :=
  { s with link := { s.link with state := state, table := table } }

/-- A node of phase 3 that accepts joins. -/
def node (n score : Nat) (role : Role) (heard : Bool) : Neighbour :=
  { node := n, phase := 3, score := score, misses := 3, heard := heard, late := false, sample := 10, accepting := true
    closing := false, role := role, bar := 0 }

/-- The phase at the last value before the wrap, and at the foot of slot 63. -/
def wrapping (last : Nat) (suppress leave : Bool) : State :=
  { up with
    timer := { up.timer with phi := BitVec.ofNat 40 (2 ^ 40 - 1), last := last, suppress := suppress, trim := 127 }
    link := { up.link with leave := leave } }

theorem witness_CycleStartEvent :
    (∀ last ∈ [0, 63], ∀ suppress leave, WrapNext (wrapping last suppress leave) ∧
      TrimLaw (wrapping last suppress leave) ∧ (wrapping last suppress leave).timer.suppress = suppress) ∧
    WrapNext { up with timer := { up.timer with phi := BitVec.ofNat 40 (63 * 2 ^ 34) } } :=
  ⟨fun _ _ suppress leave => ⟨⟨rfl, rfl, by show 63 * 2 ^ 34 ≤ (BitVec.ofNat 40 (2 ^ 40 - 1)).toNat; decide⟩,
    show (-128 : Int) ≤ 127 ∧ (127 : Int) ≤ 127 by decide, rfl⟩, rfl, rfl, by decide⟩

/-- Ticks with a share due; that bring slot 1, and one that finds it started already; and that wrap the phase, suppressed or not,
with slot 0 started already or not. -/
theorem witness_IdleStepIsOneTick : (State.reset.pending = [] ∧ State.reset.held = true) ∧
    (let s := owing up [.starting]
     s.pending = [] ∧ s.held = false ∧ s.due ≠ [] ∧ ({ s with due := [] }.afterShares s.due).timer.ticked < 2 ^ 34) ∧
    (∀ last ∈ [0, 1],
      let s := { up with timer := { up.timer with phi := BitVec.ofNat 40 (2 ^ 34 - 1), last := last } }
      s.pending = [] ∧ s.held = false ∧ s.due = [] ∧ s.timer.ticked < 2 ^ 40 ∧ s.timer.ticked / 2 ^ 34 = 1 ∧
        s.timer.phi.toNat / 2 ^ 34 = 0 ∧ s.timer.last = last) ∧
    (∀ last ∈ [0, 63], ∀ suppress, let s := wrapping last suppress false
      s.pending = [] ∧ s.held = false ∧ s.due = [] ∧ 2 ^ 40 ≤ s.timer.ticked ∧ TrimLaw s ∧ s.timer.suppress = suppress) :=
  ⟨⟨rfl, rfl⟩, ⟨rfl, rfl, nofun, show (0 : BitVec 40).toNat + (524288 + (0 : Int)).toNat < 2 ^ 34 by decide⟩,
   fun last _ => ⟨rfl, rfl, rfl, show (BitVec.ofNat 40 (2 ^ 34 - 1)).toNat + (524288 + (0 : Int)).toNat < 2 ^ 40 by decide,
     show ((BitVec.ofNat 40 (2 ^ 34 - 1)).toNat + (524288 + (0 : Int)).toNat) / 2 ^ 34 = 1 by decide,
     show (BitVec.ofNat 40 (2 ^ 34 - 1)).toNat / 2 ^ 34 = 0 by decide, rfl⟩,
   fun last _ suppress => ⟨rfl, rfl, rfl,
     show 2 ^ 40 ≤ (BitVec.ofNat 40 (2 ^ 40 - 1)).toNat + (524288 + (127 : Int)).toNat by decide,
     show (-128 : Int) ≤ 127 ∧ (127 : Int) ≤ 127 by decide, rfl⟩⟩

/-- A PENDING and a CLOSING window, each with its command waiting and without. -/
theorem witness_WindowsAtCycleStart : ∀ state ∈ [WindowState.pending, .closing],
    ∀ work ∈ [Work.enbw 1, .disw 1, .none],
    let s := { put (wrapping 63 false false) 1 { onWrite with state := state } with mbox := { up.mbox with work := work } }
    WrapNext s ∧ TrimLaw s ∧ s.timer.suppress = false ∧ (1 : WinNo) ≠ 0 ∧
      s.win 1 = some { onWrite with state := state } ∧ s.mbox.work = work :=
  fun state _ work _ => ⟨⟨rfl, rfl, by show 63 * 2 ^ 34 ≤ (BitVec.ofNat 40 (2 ^ 40 - 1)).toNat; decide⟩,
    show (-128 : Int) ≤ 127 ∧ (127 : Int) ≤ 127 by decide, rfl, by decide, win_put (wrapping 63 false false) 1 _, rfl⟩

/-- The windows' share left due, its event of number 7, with the local cycle number set to 9 since. -/
theorem witness_WindowsShare : ∀ x ∈ [(WindowState.pending, Work.enbw 1), (.closing, .disw 1)],
    let s := owing { put up 1 { onWrite with state := x.1 } with
      mbox := { up.mbox with work := x.2 }, timer := { up.timer with cycle := 9 } } [.windows [1] 7]
    s.held = false ∧ s.due = [.windows [1] 7] ∧ (1 : WinNo) ∈ [(1 : WinNo)] ∧ s.win 1 = some { onWrite with state := x.1 } ∧
      s.timer.cycle ≠ 7 ∧ (x.1 = .pending ∧ s.mbox.work = .enbw 1 ∨ x.1 = .closing ∧ s.mbox.work = .disw 1) := by
  intro x h
  refine ⟨rfl, rfl, List.mem_singleton.2 rfl, win_put up 1 _, show (9 : Word) ≠ 7 by decide, ?_⟩
  simp only [List.mem_cons, List.not_mem_nil, or_false] at h
  rcases h with rfl | rfl
  · exact .inl ⟨rfl, rfl⟩
  · exact .inr ⟨rfl, rfl⟩

/-- Window 1 of group 2 in this state under its windows' share, window 2 a LIVE member with a staged granule. -/
def joins (state : WindowState) (staging : Option Word) : State :=
  let member := live (subBody .hold false 2) [3, 4]
  owing { put (put up 1 { member with state := state }) 2 { member with ov := { member.ov with staged := [true] } } with
    groups := up.groups.set 2 { revision := some 9, staging := staging, age := 3 } } [.windows [1] 7]

/-- A member that goes LIVE, with and without a staging, and one that is purged; beside them a LIVE member in no such state. -/
theorem witness_MemberGoesLive : ∀ state ∈ [WindowState.pending, .closing], ∀ staging ∈ [none, some (5 : Word)],
    let s := joins state staging
    s.held = false ∧ s.due = [.windows [1] 7] ∧ (1 : WinNo) ≠ 0 ∧
      (∃ w, s.win 1 = some w ∧ w.state = state ∧ w.group = 2) ∧ s.groups[2].staging = staging ∧
      (2 : WinNo) ∉ [(1 : WinNo)] ∧ ∃ x, s.win 2 = some x ∧ x.state = .live ∧ x.group = 2 :=
  fun _ _ _ _ => ⟨rfl, rfl, by decide, ⟨_, rfl, rfl, rfl⟩, rfl, by decide, _, rfl, rfl, rfl⟩

/-- R84, R74: the member going LIVE discards the staging in progress; with none there is nothing to count. -/
theorem test_member_goes_live :
    ([some (5 : Word), none].map fun staging => match exec .cycleStart (joins .pending staging) with
      | .next t => some (t.groups[2], (t.win 2).map fun w => w.ov.staged, t.counter .groupsDropped)
      | _ => none) =
    [some ({ revision := none, staging := none, age := 0 }, some [false], 1),
      some ({ revision := none, staging := none, age := 0 }, some [false], 0)] := by decide +kernel

/-- R154: the number completed with is that of the event. -/
theorem test_enbw_event_cycle :
    let s := owing { put up 1 { onWrite with state := .pending } with
      mbox := { up.mbox with work := .enbw 1 }, timer := { up.timer with cycle := 9 } } [.windows [1] 7]
    (s.settleCycle.mbox.response.data, s.settleCycle.timer.cycle) = ([7, 0], 9) := by decide +kernel

/-- An entry of one granule. -/
def entry (n : WinNo) (cls attempts age : Nat) (seq : Option (BitVec 8)) : Entry :=
  { win := n, first := 0, last := 0, cls := cls, attempts := attempts, age := age, seq := seq }

/-- A countdown of 1 and of 2, alone due; a record with an entry within its attempts and one at its limit. -/
theorem witness_JournalTimers :
    (∀ k ∈ [1, 2],
     let w := { onWrite with pub := { onWrite.pub with countdown := k } }
     let s := owing (put up 1 w) [.refresh 1]
     Due s (.refresh 1) ∧ s.held = false ∧ s.due = [.refresh 1] ∧ s.win 1 = some w ∧ w.state = .live ∧
       w.pub.countdown = k ∧ w.defn.body = .publish { topic := 5, cls := 1, mode := .onWrite, refresh := 2 }) ∧
    (∀ e ∈ [entry 1 2 0 15 none, entry 1 3 0 3 none],
      let s := owing { put up 1 { onWrite with pub := { onWrite.pub with states := [.waiting] } } with
        journal := { entries := [e, entry 2 2 0 14 none, entry 3 3 1 9 (some 4)], hold := false } } [.journalAge]
      Due s .journalAge ∧ (∀ l c, .windows l c ∉ s.due) ∧
        ((s.journal.entries.map fun e => { e with age := min 255 (e.age + 1) }).filter fun e =>
          e.seq.isNone && (e.cls == 2 && decide (16 ≤ e.age) || e.cls == 3 && decide (4 ≤ e.age))) ≠ [] ∧
        ∀ n w, s.win n = some w → w.state = .live → w.pub.backlog = false) ∧
    (∀ x ∈ [GranState.inFlight, .inFlightAgain], ∀ attempts ∈ [3, 4],
     let f : SentFrame := { seq := 4, cycle := 7, carried := [(1, 0)] }
     let w := { onWrite with pub := { onWrite.pub with states := [x] } }
     let e := entry 1 1 attempts 1 (some 4)
     let s := owing { put up 1 w with
       timer := { up.timer with cycle := 9 }
       fe := { up.fe with sent := [{ seq := 3, cycle := 8, carried := [] }, f] }
       journal := { entries := [e, entry 2 0 8 1 (some 3)], hold := false } } [.lost]
     Due s .lost ∧ s.fe.sent = [{ seq := 3, cycle := 8, carried := [] }] ++ f :: [] ∧
       (∀ y ∈ ([{ seq := 3, cycle := 8, carried := [] }] : List SentFrame),
         y.cycle = s.timer.cycle ∨ y.cycle = s.timer.cycle - 1) ∧
       f.cycle ≠ s.timer.cycle ∧ f.cycle ≠ s.timer.cycle - 1 ∧
       (s.journal.entries.map fun e => (e.win, e.first)).Nodup ∧ f.carried.Nodup ∧ e ∈ s.journal.entries ∧
       (f.carried.contains (e.win, e.first) && decide (e.seq = some f.seq)) = true ∧ s.win e.win = some w ∧
       e.Covers e.win 0 ∧ (∀ y ∈ s.journal.entries, y.Covers e.win 0 → y = e) ∧
       (w.granState 0 = .inFlight ∨ w.granState 0 = .inFlightAgain)) := by
  refine ⟨fun k _ => ⟨owes _ _ rfl, rfl, rfl, win_put up 1 _, rfl, rfl, rfl⟩,
    fun e h => ⟨owes _ _ rfl, fun l c h => by simp [owing] at h, ?_, ?_⟩, fun x hx attempts ha => ⟨owes _ _ rfl, rfl, ?_⟩⟩
  · simp only [List.mem_cons, List.not_mem_nil, or_false] at h
    rcases h with rfl | rfl <;> simp [owing, entry]
  · intro n w a _
    obtain ⟨rfl, rfl⟩ := put_win (show (put up 1 _).win n = some w from a)
    rfl
  · simp only [List.mem_cons, List.not_mem_nil, or_false] at hx ha
    rcases hx with rfl | rfl <;> rcases ha with rfl | rfl <;>
      exact ⟨by decide, by decide, by decide, by decide, by decide, List.mem_cons_self, by decide, win_put up 1 _, by decide,
        by decide, by decide⟩

/-- R68: the usual cycle, nothing aged out; an age of 255 stays. -/
theorem test_ageing :
    let s := owing { up with journal := { entries := [entry 1 0 0 255 none, entry 2 2 0 14 none, entry 3 3 1 2 (some 4)], hold := false } }
      [.journalAge]
    s.held = false ∧ s.due = [.journalAge] ∧ (match exec .cycleStart s with
      | .next t => some (t.journal.entries.map Entry.age, t.counter .agedOut)
      | _ => none) = some ([255, 15, 3], 0) := by decide +kernel

/-- Every action, ungrouped and grouped, FRESH and EXPIRED, at hold 3 of age 2, and of age 1 with the share alone due, and
EMPTY; a group with no staging, with one of age 6 and with one of age 7. -/
theorem witness_OverlayTimers :
    (∀ action ∈ [ExpiryAction.hold, .fallback 7, .release], ∀ group ∈ [(0 : GroupNo), 7],
      ∀ state ∈ [OverlayState.empty, .fresh, .expired], ∀ age ∈ [1, 2],
      let v := live (subBody action false group) [2, 3]
      let w := { v with ov := { v.ov with state := state, age := age } }
      let s := owing (put up 1 w) [.overlayAge 1]
      Due s (.overlayAge 1) ∧ s.held = false ∧ s.due = [.overlayAge 1] ∧ s.win 1 = some w ∧ w.state = .live ∧
        w.defn.body = .subscribe { topic := 6, hold := 3, action := action, releaseOnWrite := false, group := group } ∧
        w.ov.age = age ∧ w.ov.state = state) ∧
    (∀ g ∈ [(1 : GroupNo), 7], ∀ x ∈ [(none, 0), (some 4, 6), (some 4, 7)],
      let s := owing { up with groups := up.groups.set g { revision := none, staging := x.1, age := x.2 } } [.stagingAge g]
      g ≠ 0 ∧ Due s (.stagingAge g) ∧ s.held = false ∧ s.due = [.stagingAge g] ∧ s.groups[g].staging = x.1 ∧
        s.groups[g].age = x.2) := by
  refine ⟨fun _ _ _ _ _ _ _ _ => ⟨owes _ _ rfl, rfl, rfl, win_put up 1 _, rfl, rfl, rfl, rfl⟩, fun g h x k => ?_⟩
  simp only [List.mem_cons, List.not_mem_nil, or_false] at h k
  rcases h with rfl | rfl <;> rcases k with rfl | rfl | rfl <;>
    exact ⟨by decide, owes _ _ rfl, rfl, rfl, by decide, by decide⟩

/-- A table of two nodes keeps the neighbour table's law. -/
theorem two_nodes (s : State) (a b : Neighbour) (h : s.link.table = [a, b]) (ha : a.node ≠ b.node) :
    NeighbourLaw s := by
  unfold NeighbourLaw
  rw [h]
  refine ⟨by simp, ?_⟩
  simp
  omega

/-- Nodes 9 and 8 with the roles a link state has: 9 the target, 8 the serving node. -/
def nodesOf (state : LinkState) : List Neighbour :=
  [node 9 200 (if state = .joining ∨ state = .handoff then .target else .none) true,
    node 8 100 (if state = .served ∨ state = .handoff then .serving else .none) true]

theorem lawful_nodes (s : State) (h : s.link.table = nodesOf s.link.state) : NeighbourLaw s ∧ RoleLaw s := by
  refine ⟨two_nodes s _ _ h (show 9 ≠ 8 by decide), ?_⟩
  unfold RoleLaw
  rw [h]
  cases s.link.state <;> exact ⟨rfl, rfl⟩

/-- The holdover test alone due, with a beacon of the reference taken and one cycle short of Hl; at Hl in every link state;
the STARTING counts 6 and 7; the served-cycle counts 63 and 64. -/
theorem witness_LinkTimers :
    (∀ taken, let s := owing { up with timer := { up.timer with timing := .locked, holdover := 23, taken := taken } } [.holdover]
     s.held = false ∧ s.due = [.holdover] ∧ s.timer.taken = taken ∧ s.timer.timing ≠ .free ∧
       min 255 (s.timer.holdover + 1) < s.params.hl) ∧
    (∀ state, let s := owing { linked up state (nodesOf state) with
        timer := { up.timer with timing := .holdover, holdover := 24 } } [.holdover]
      Due s .holdover ∧ s.timer.timing ≠ .free ∧ s.timer.taken = false ∧ s.params.hl ≤ min 255 (s.timer.holdover + 1) ∧
        NeighbourLaw s ∧ RoleLaw s ∧ s.link.state = state ∧
        (state = .served ∨ state = .handoff → ∃ e, s.link.holder .serving = some e)) ∧
    (∀ n ∈ [6, 7], let s := owing { up with link := { up.link with state := .starting, startCount := n }
                                            mbox := { up.mbox with work := .join } } [.starting]
     Due s .starting ∧ s.held = false ∧ s.due = [.starting] ∧ s.link.state = .starting ∧ s.link.startCount = n ∧
       s.mbox.work = .join) ∧
    (∀ state ∈ [LinkState.served, .handoff], ∀ n ∈ [63, 64],
      let s := owing { linked up state [] with status := { up.status with autoClear := true, served := n } } [.served]
      Due s .served ∧ s.status.autoClear = true ∧ (s.link.state = .served ∨ s.link.state = .handoff) ∧
        63 ≤ s.status.served) := by
  refine ⟨fun _ => ⟨rfl, rfl, rfl, (show Timing.locked ≠ .free by decide), (show min 255 (23 + 1) < 25 by decide)⟩,
    fun state => ⟨owes _ _ rfl, (show Timing.holdover ≠ .free by decide), rfl, (show 25 ≤ min 255 (24 + 1) by decide),
      (lawful_nodes _ rfl).1, (lawful_nodes _ rfl).2, rfl, ?_⟩,
    fun _ _ => ⟨owes _ _ rfl, rfl, rfl, rfl, rfl, rfl⟩, fun state h n k => ⟨owes _ _ rfl, rfl, ?_, ?_⟩⟩
  · rintro (rfl | rfl) <;> exact ⟨_, rfl⟩
  · simp only [List.mem_cons, List.not_mem_nil, or_false] at h; exact h
  · simp only [List.mem_cons, List.not_mem_nil, or_false] at k; show 63 ≤ n; omega

theorem noted_none {p : Params} {t : List Neighbour} (h : ∀ e ∈ t, ¬ e.Candidate p) : Noted p t none :=
  ⟨fun c hc => absurd hc.2.1 (h c hc.1), fun _ => rfl⟩

theorem noted_best {p : Params} {t : List Neighbour} {c : Neighbour} (h : Best p t c) :
    Noted p t (some (c.node, c.score)) := by
  refine ⟨fun d hd => ?_, fun n => absurd h.2.1 (n c h.1)⟩
  have a := h.2.2 d hd.1 hd.2.1
  have b := hd.2.2 c h.1 h.2.1
  have node : c.node = d.node := by omega
  have score : c.score = d.score := by omega
  rw [node, score]

/-- A beacon kept with one entry for car 40. -/
def kept (kind : GrantKind) : Kept :=
  { accepting := true, closing := false, late := false, grants := [{ car := 40, first := 8, count := 1, kind := kind }] }

/-- The nodes of a link state, each with these misses. -/
def missed (state : LinkState) (misses : Nat) : List Neighbour := (nodesOf state).map fun e => { e with misses := misses }

/-- The beacon-phase end alone due, with a join request and the beacons kept of target and serving node; the serving node
has missed this often. -/
def joining (state : LinkState) (j : JoinRequest) (target serving : Option Kept) (misses : Nat) : State :=
  owing { linked up state (missed state misses) with
    link := { (linked up state (missed state misses)).link with
      car := 40, join := j, keptTarget := target, keptServing := serving, lfsr := 0x0505 } } [.phaseEnd]

theorem joining_laws (state : LinkState) (j : JoinRequest) (target serving : Option Kept) (misses : Nat) :
    NeighbourLaw (joining state j target serving misses) ∧ RoleLaw (joining state j target serving misses) := by
  refine ⟨two_nodes _ _ _ rfl (show 9 ≠ 8 by decide), ?_⟩
  cases state <;> exact ⟨rfl, rfl⟩

theorem joining_noted : Noted up.params (missed .joining 3) (some (8, 100)) ∧
    ∀ misses ∈ [3, 4], Noted up.params (missed .handoff misses) none := by
  refine ⟨noted_best (c := node 8 100 .none true) ?_, fun misses h => noted_none ?_⟩
  · unfold Best Neighbour.Candidate; decide
  · unfold Neighbour.Candidate; revert misses; decide

/-- JOINING: a request unanswered on tries 1, 5 and 6, one still due besides, one in its first phase end, one due, one that
waits, and one whose wait is over. HANDOFF: the serving node with 3 and 4 misses, and with a release kept; the target with no
answer, an accept and a refusal; the request in each of its states. -/
theorem witness_JoinTimers :
    (∀ j ∈ ([⟨1, 0, none, true, 1⟩, ⟨5, 0, none, true, 1⟩, ⟨5, 0, some 60, true, 1⟩, ⟨6, 0, none, true, 1⟩, ⟨1, 0, none, true, 0⟩,
        ⟨1, 0, some 63, false, 0⟩, ⟨2, 1, none, false, 0⟩, ⟨2, 0, none, false, 0⟩] : List JoinRequest),
     let s := joining .joining j none none 3
     Due s .phaseEnd ∧ s.due = [.phaseEnd] ∧ NeighbourLaw s ∧ RoleLaw s ∧
       Noted s.params s.link.table (some (8, 100)) ∧ s.link.state = .joining ∧ Unanswered s.link ∧ s.link.join = j ∧
       ∃ e, s.link.holder .target = some e) ∧
    (stepRegister 0x0505).toNat % 2 ^ 1 = 0 ∧ (stepRegister 0x0505).toNat % 2 ^ 2 ≠ 0 ∧
    ∀ j ∈ ([⟨1, 0, none, true, 0⟩, ⟨1, 0, none, true, 1⟩, ⟨1, 0, some 60, false, 0⟩] : List JoinRequest),
      ∀ target ∈ [none, some (kept .joinAccept), some (kept .joinRefuse)], ∀ misses ∈ [3, 4],
      ∀ serving ∈ [none, some (kept .release)],
      let s := joining .handoff j target serving misses
      Due s .phaseEnd ∧ s.due = [.phaseEnd] ∧ NeighbourLaw s ∧ RoleLaw s ∧ Noted s.params s.link.table none ∧
        s.link.state = .handoff ∧ s.link.join = j ∧
        ∃ e x, s.link.holder .serving = some e ∧ s.link.holder .target = some x ∧
          (serving = none → misses = 3 → Holds s e) ∧ (serving = none → misses = 4 → Lost s e none) ∧
          (serving = some (kept .release) → Lost s e (some 16)) ∧ (target = none → Unanswered s.link) := by
  refine ⟨fun j _ => ⟨owes _ _ rfl, rfl, (joining_laws _ _ _ _ _).1, (joining_laws _ _ _ _ _).2, joining_noted.1,
      rfl, fun _ h => (by cases h), rfl, _, rfl⟩, by decide, by decide, fun j _ target _ misses hm serving hs =>
    ⟨owes _ _ rfl, rfl, (joining_laws _ _ _ _ _).1, (joining_laws _ _ _ _ _).2, joining_noted.2 _ hm, rfl, rfl,
      _, _, rfl, rfl, ?_, ?_, ?_, ?_⟩⟩
  · rintro rfl rfl; exact ⟨fun _ h => (by cases h), (show 3 < 4 by decide)⟩
  · rintro rfl rfl; exact .inr ⟨rfl, fun _ h => (by cases h), (show 4 ≤ 4 by decide)⟩
  · rintro rfl; exact .inl ⟨rfl, _, rfl, .inl ⟨_, List.mem_singleton.2 rfl, rfl, rfl⟩⟩
  · rintro rfl; exact fun _ h => (by cases h)

/-- A beacon kept with an accept, and with a refusal, for car 40. -/
theorem witness_answers : (kept .joinAccept).firstAnswer 40 = some .joinAccept ∧ (kept .joinRefuse).Refuses 40 ∧
    ({ kept .up with closing := true } : Kept).Refuses 40 := by
  unfold Kept.Refuses; decide

/-! ### Witnesses: slots and the beacon-phase end -/

/-- A share of a slot-start event left; slots 0, 7 and 62 at their last tick; the slots short of 8 with the link OFF and in
SEARCH; a miss that drops its entry, and misses that do not: one short of D, and with a role. -/
theorem witness_SlotStartEvent :
    (let s := owing up [.slot 8]; s.held = false ∧ ∃ d ∈ s.due, d.ofSlot = true) ∧
    (∀ k ∈ [0, 7, 62], let s := { up with timer := { up.timer with phi := BitVec.ofNat 40 ((k + 1) * 2 ^ 34 - 1), trim := 127 } }
     s.held = false ∧ s.due = [] ∧ TrimLaw s ∧ s.timer.phi.toNat / 2 ^ 34 = k ∧ k + 1 ≠ s.timer.last) ∧
    (∀ k ∈ [0, 3, 61], ∀ state ∈ [LinkState.off, .search],
      let s := { linked up state [{ node 9 200 .none false with phase := 0, misses := 5 }, node 8 100 .none false] with
        timer := { up.timer with phi := BitVec.ofNat 40 ((k + 1) * 2 ^ 34 - 1), trim := -128 } }
      NeighbourLaw s ∧ s.held = false ∧ s.due = [] ∧ TrimLaw s ∧ k ≠ 7 ∧ k + 1 ≠ s.timer.last ∧ s.link.state ≠ .starting ∧
        (s.link.state = .off ∨ s.link.state = .search) ∧ s.timer.phi.toNat / 2 ^ 34 = k) ∧
    (∀ x ∈ [(Role.none, 5), (.none, 4), (.serving, 5)],
     let e := { node 9 200 x.1 false with misses := x.2 }
     let s := owing (linked up .served [e, node 8 100 .serving true]) [.miss 3 9]
     NeighbourLaw s ∧ Due s (.miss 3 e.node) ∧ (∀ p, .miss p e.node ∈ s.due → p = 3) ∧ e ∈ s.link.table ∧ e.phase = 3 ∧
       e.heard = false ∧ e.role = x.1 ∧ e.misses = x.2 ∧ s.params.d = 6 ∧ s.due = [.miss 3 e.node]) := by
  refine ⟨⟨rfl, _, List.mem_singleton.2 rfl, rfl⟩, fun k hk => ⟨rfl, rfl, ?_, ?_, Nat.succ_ne_zero k⟩, fun k hk state hs => ?_,
    fun x _ => ⟨two_nodes _ _ _ rfl (show 9 ≠ 8 by decide), owes _ _ rfl, ?_, List.mem_cons_self, rfl, rfl, rfl, rfl, rfl, rfl⟩⟩
  · exact show (-128 : Int) ≤ 127 ∧ (127 : Int) ≤ 127 by decide
  · show (BitVec.ofNat 40 ((k + 1) * 2 ^ 34 - 1)).toNat / 2 ^ 34 = k
    revert k; decide
  · refine ⟨two_nodes _ _ _ rfl (by decide), rfl, rfl, ?_, ?_, ?_, ?_, ?_, ?_⟩
    · exact show (-128 : Int) ≤ -128 ∧ (-128 : Int) ≤ 127 by decide
    · revert k; decide
    · exact Nat.succ_ne_zero k
    · intro a; replace a : state = .starting := a; subst a; simp at hs
    · simp only [List.mem_cons, List.not_mem_nil, or_false] at hs; exact hs
    · show (BitVec.ofNat 40 ((k + 1) * 2 ^ 34 - 1)).toNat / 2 ^ 34 = k
      clear hs; revert k; decide
  · intro p h
    have := List.mem_singleton.1 h
    cases this; rfl

/-- The eighth STARTING count at slot 0, with the Link Controller's share of the cycle-start event before it still due, LEAVE
pending or not. -/
theorem witness_StartingBehindTheCycle : ∀ leave,
    let s := owing { up with link := { up.link with state := .starting, startCount := 7, leave := leave } }
      [.linkCycle, .starting, .slot 0]
    s.held = false ∧ .starting ∈ s.due ∧ .linkCycle ∈ s.due ∧ s.link.leave = leave ∧
      let u := { s with due := s.due.filter Duty.ofSlot }.afterShares (s.due.filter fun d => !d.ofSlot)
      (if leave then u.link.state = .off else u.link.state = .starting ∧ 7 ≤ u.link.startCount) := by decide +kernel

/-- Slot 7's misses are due with the beacon-phase end. HANDOFF: the serving node of phase 7 has 2 or 3 misses, the request is
unanswered at its first or second end. -/
def atPhaseEnd (state : LinkState) (j : JoinRequest) (misses : Nat) : State :=
  owing { linked up state ((missed state misses).map fun e => { e with phase := 7, heard := false }) with
    link := { (linked up state ((missed state misses).map fun e => { e with phase := 7, heard := false })).link with
      car := 40, join := j } } [.miss 7 9, .miss 7 8, .starting, .phaseEnd, .lost, .holdover, .slot 8]

/-- The three rows that follow the misses, where what they name comes and where it does not. -/
theorem witness_AfterTheMisses :
    (∀ x ∈ [((1 : Nat), true), (0, false)], let s := atPhaseEnd .handoff ⟨1, 0, none, true, x.1⟩ 3
      s.held = false ∧ .phaseEnd ∈ s.due ∧ (.miss 7 8) ∈ s.due ∧
      let u := s.settleOnly Duty.isMiss
      u.link.state = .handoff ∧ Unanswered u.link ∧ u.link.join.sent = true ∧ (decide (1 ≤ u.link.join.ends) = x.2)) ∧
    (let s := atPhaseEnd .joining ⟨2, 0, none, false, 0⟩ 3
     let u := s.settleOnly Duty.isMiss
     s.held = false ∧ .phaseEnd ∈ s.due ∧ u.link.state = .joining ∧ Unanswered u.link ∧ u.link.join = ⟨2, 0, none, false, 0⟩) ∧
    (let s := { atPhaseEnd .search ⟨0, 0, none, false, 0⟩ 3 with timer := { up.timer with timing := .locked, holdover := 24 } }
     let u := s.settleOnly Duty.isMiss
     s.held = false ∧ .holdover ∈ s.due ∧ u.timer.timing ≠ .free ∧ u.timer.taken = false ∧
       u.params.hl ≤ min 255 (u.timer.holdover + 1)) := by
  unfold Unanswered
  refine ⟨fun x hx => ?_, ?_, ?_⟩
  · simp only [List.mem_cons, List.not_mem_nil, or_false] at hx
    rcases hx with rfl | rfl <;> exact ⟨rfl, by decide, by decide, rfl, fun _ h => (by cases h), rfl, rfl⟩
  · exact ⟨rfl, by decide, rfl, fun _ h => (by cases h), rfl⟩
  · exact ⟨rfl, by decide, (by decide : Timing.locked ≠ .free), rfl, (by decide : 25 ≤ min 255 25)⟩

/-- R114, R129: with Ls 4 the fourth miss, of slot 7 itself, is a serving loss at the beacon-phase end, also where the request
is unanswered; the third is not, and the handoff fails. -/
theorem test_miss_before_unanswered :
    ([3, 2].map fun misses => match exec .joinUnanswered (atPhaseEnd .handoff ⟨1, 0, none, true, 1⟩ misses) with
      | .next t => some (t.link.state, t.link.prevNode)
      | _ => none) = [some (.joining, 8), some (.served, 0)] := by decide +kernel

/-- The edges of the beacon slots and of the contention slots, with DOWN grants that begin at 8 and end at 63, in every link
state; and the join request of JOINING and of HANDOFF due in contention slots 60 and 63. -/
theorem witness_SlotSettings :
    (∀ k ∈ [0, 7, 8, 63], ∀ state, ∀ due ∈ [none, some 60, some 63],
      let s := owing { linked up state (nodesOf state) with
        link := { (linked up state (nodesOf state)).link with
          join := { up.link.join with due := due }
          grants := [{ up := false, dest := 0, first := 8, last := 20 }, { up := false, dest := 40, first := 10, last := 63 },
            { up := true, dest := 40, first := 30, last := 31 }] } } [.slot k]
      s.held = false ∧ s.due = [.slot k] ∧ s.link.state = state ∧ s.link.join.due = due ∧
        (∀ g ∈ s.link.grants, g.up = true → k < g.first ∨ g.last < k)) ∧
    (∀ k ∈ [60, 63], ∀ state ∈ [LinkState.joining, .handoff],
      let s := owing { linked up state (nodesOf state) with
        link := { (linked up state (nodesOf state)).link with
          join := { up.link.join with due := some k }, grants := [{ up := true, dest := 40, first := 30, last := 59 }] } } [.slot k]
      s.held = false ∧ s.due = [.slot k] ∧ s.link.state = state ∧ s.link.join.due = some k ∧
        (∃ x, s.link.holder .target = some x) ∧ (state = .handoff → ∃ e, s.link.holder .serving = some e) ∧
        (∀ g ∈ s.link.grants, g.up = true → k < g.first ∨ g.last < k)) ∧
    (∀ k ∈ [7, 64], ∀ g ∈ ([{ up := false, dest := 0, first := 8, last := 20 },
      { up := false, dest := 40, first := 10, last := 63 }] : List Grant), k < g.first ∨ g.last < k) := by
  refine ⟨fun k hk state due _ => ⟨rfl, rfl, rfl, rfl, ?_⟩,
    fun k hk state hs => ⟨rfl, rfl, rfl, rfl, ?_, ?_, ?_⟩, by decide⟩
  · show ∀ g ∈ ([{ up := false, dest := 0, first := 8, last := 20 }, { up := false, dest := 40, first := 10, last := 63 },
      { up := true, dest := 40, first := 30, last := 31 }] : List Grant), g.up = true → k < g.first ∨ g.last < k
    revert k; decide
  · simp only [List.mem_cons, List.not_mem_nil, or_false] at hs
    rcases hs with rfl | rfl <;> exact ⟨_, rfl⟩
  · rintro rfl; exact ⟨_, rfl⟩
  · show ∀ g ∈ ([{ up := true, dest := 40, first := 30, last := 59 }] : List Grant), g.up = true → k < g.first ∨ g.last < k
    clear hs; revert k; decide

/-- SERVED, and HANDOFF with no request due in the slot; slots 8 and 59 at the ends of a grant; fifteen frames and sixteen sent
in the cycle; 31 and 32 records kept; with entries to send and with none, and an acknowledgement pending or not. -/
theorem witness_UplinkFrameIsBuilt : ∀ state ∈ [LinkState.served, .handoff], ∀ k ∈ [8, 59], ∀ frames ∈ [15, 16],
    ∀ records ∈ [31, 32], ∀ hold ack,
    ∀ entries ∈ [[], [entry 1 0 0 0 none, { entry 2 1 0 0 none with last := 13 }, entry 3 3 0 0 none]],
    let g : Grant := { up := true, dest := 40, first := 8, last := 59 }
    let s := owing { linked up state (nodesOf state) with
      link := { (linked up state (nodesOf state)).link with grants := [g] }
      fe := { up.fe with sentInCycle := frames, sent := List.replicate records { seq := 1, cycle := 0, carried := [] }
                         ackPending := ack }
      journal := { entries := entries, hold := hold } } [.slot k]
    s.held = false ∧ s.due = [.slot k] ∧ (s.link.state = .served ∨ s.link.state = .handoff ∧ s.link.join.due ≠ some k) ∧
      g ∈ s.link.grants ∧ g.up = true ∧ g.first ≤ k ∧ k ≤ g.last ∧ (∃ e, s.link.holder .serving = some e) ∧
      s.fe.sentInCycle = frames ∧ s.fe.sent.length = records ∧ s.journal.hold = hold ∧ s.journal.entries = entries ∧
      s.fe.ackPending = ack ∧ ∀ n w, s.win n = some w → w.state = .live → w.pub.backlog = false := by
  intro state hs k hk frames _ records _ hold ack entries _
  simp only [List.mem_cons, List.not_mem_nil, or_false] at hk hs
  refine ⟨rfl, rfl, ?_, List.mem_singleton.2 rfl, rfl, by show 8 ≤ k; omega, by show k ≤ 59; omega, ?_, rfl,
    List.length_replicate, rfl, rfl, rfl, fun n w h => by rw [no_places _ rfl] at h; cases h⟩
  · rcases hs with rfl | rfl
    · exact .inl rfl
    · exact .inr ⟨rfl, nofun⟩
  · rcases hs with rfl | rfl <;> exact ⟨_, rfl⟩

/-- SEARCH with no candidate and with two of equal score 64; JOINING with an accept and with a refusal kept; SERVED with a
release kept, with four misses, with a candidate short of the margin, and with one that passes for the second and for the
third time. -/
theorem witness_BeaconPhaseEnd :
    (let s := owing (linked up .search [node 9 63 .none true, node 8 200 .none false]) [.phaseEnd]
     s.held = false ∧ s.due = [.phaseEnd] ∧ NeighbourLaw s ∧ RoleLaw s ∧ Noted s.params s.link.table none ∧
       s.link.state = .search ∧ ∀ e ∈ s.link.table, ¬ e.Candidate s.params) ∧
    (let c := node 7 64 .none true
     let s := owing (linked up .search [node 9 64 .none true, c]) [.phaseEnd]
     s.held = false ∧ s.due = [.phaseEnd] ∧ NeighbourLaw s ∧ RoleLaw s ∧ Noted s.params s.link.table (some (7, 64)) ∧
       s.link.state = .search ∧ Best s.params s.link.table c) ∧
    (∀ k ∈ [kept .joinAccept, kept .joinRefuse],
     let s := joining .joining ⟨1, 0, none, true, 0⟩ (some k) none 3
     s.held = false ∧ s.due = [.phaseEnd] ∧ NeighbourLaw s ∧ RoleLaw s ∧ Noted s.params s.link.table (some (8, 100)) ∧
       s.link.state = .joining ∧ s.link.keptTarget = some k ∧ ∃ e, s.link.holder .target = some e) ∧
    (∀ x ∈ [(some (kept .release), 3), (none, 4), (none, 3)], ∀ n ∈ [1, 2],
     let j := joining .served ⟨0, 0, none, false, 0⟩ none x.1 x.2
     let s := { j with link := { j.link with lastTested := some 9, persist := n } }
     s.held = false ∧ s.due = [.phaseEnd] ∧ NeighbourLaw s ∧ RoleLaw s ∧ Noted s.params s.link.table (some (9, 200)) ∧
       s.link.state = .served ∧ s.link.lastTested = some 9 ∧ s.link.persist = n ∧ s.params.k = 3 ∧
       ∃ c, Best s.params s.link.table c ∧ c.node = 9 ∧ ∃ e, s.link.holder .serving = some e ∧
         e.score + s.params.hm ≤ c.score ∧
         (x = (some (kept .release), 3) → Lost s e (some 16)) ∧ (x = (none, 4) → Lost s e none) ∧
         (x = (none, 3) → Holds s e)) ∧
    (let s := owing (linked up .served [node 9 119 .none true, node 8 100 .serving true]) [.phaseEnd]
     NeighbourLaw s ∧ RoleLaw s ∧ Noted s.params s.link.table (some (9, 119)) ∧
       ∃ e, s.link.holder .serving = some e ∧ Holds s e ∧ 119 < e.score + s.params.hm) := by
  have none63 : ∀ e ∈ [node 9 63 .none true, node 8 200 .none false], ¬ e.Candidate up.params := by
    unfold Neighbour.Candidate; decide
  have best64 : Best up.params [node 9 64 .none true, node 7 64 .none true] (node 7 64 .none true) := by
    unfold Best Neighbour.Candidate; decide
  have best119 : Best up.params [node 9 119 .none true, node 8 100 .serving true] (node 9 119 .none true) := by
    unfold Best Neighbour.Candidate; decide
  have best : ∀ m ∈ [3, 4], Best up.params (missed .served m) { node 9 200 .none true with misses := m } := by
    unfold Best Neighbour.Candidate; decide
  refine ⟨⟨rfl, rfl, two_nodes _ _ _ rfl (by decide), ⟨rfl, rfl⟩, noted_none none63, rfl, none63⟩,
    ⟨rfl, rfl, two_nodes _ _ _ rfl (by decide), ⟨rfl, rfl⟩, noted_best best64, rfl, best64⟩,
    fun k _ => ⟨rfl, rfl, (joining_laws _ _ _ _ _).1, (joining_laws _ _ _ _ _).2, joining_noted.1, rfl, rfl, _, rfl⟩,
    fun x hx n _ => ?_,
    ⟨two_nodes _ _ _ rfl (by decide), ⟨rfl, rfl⟩, noted_best best119, _, rfl,
      ⟨fun _ h => (by cases h), (show 3 < 4 by decide)⟩, (show 119 < 100 + 20 by decide)⟩⟩
  have b := best x.2 (by simp only [List.mem_cons, List.not_mem_nil, or_false] at hx; rcases hx with rfl | rfl | rfl <;> decide)
  refine ⟨rfl, rfl, (joining_laws .served ⟨0, 0, none, false, 0⟩ none x.1 x.2).1,
    (joining_laws .served ⟨0, 0, none, false, 0⟩ none x.1 x.2).2, noted_best b, rfl, rfl, rfl, rfl, _, b, rfl, _, rfl,
    (show 100 + 20 ≤ 200 by decide), ?_, ?_, ?_⟩
  · rintro rfl; exact .inl ⟨rfl, _, rfl, .inl ⟨_, List.mem_singleton.2 rfl, rfl, rfl⟩⟩
  · rintro rfl; exact .inr ⟨rfl, fun _ h => (by cases h), (show 4 ≤ 4 by decide)⟩
  · rintro rfl; exact ⟨fun _ h => (by cases h), (show 3 < 4 by decide)⟩

/-! ### Witnesses: the frame port -/

/-- A beacon with 16 grants and 16 acks, every field at the top of its range; and one with neither. -/
theorem witness_FramesReadBack :
    Beacon.ok { node := 255, phase := 7, cycle := 0xFFFF, accepting := true, closing := true
                grants := List.replicate 16 { car := 255, first := 255, count := 255, kind := .release }
                acks := List.replicate 16 { car := 255, base := 255, map := 0xFFFF } } ∧
    Beacon.ok { node := 0, phase := 0, cycle := 0, accepting := false, closing := false, grants := [], acks := [] } ∧
    Downlink.ok { node := 255, dest := 255, seq := 255
                  records := [{ topic := 1023, revision := 0xFFFF, first := 255
                                data := List.replicate 14 (List.replicate 16 255) }] } ∧
    Downlink.ok { node := 1, dest := 0, seq := 0, records := List.replicate 11
                    { topic := 1, revision := 0, first := 0, data := [List.replicate 16 0] } } := by
  unfold Beacon.ok Downlink.ok
  decide +kernel

/-- No record and eleven, at the bounds of a record's granule count; and a record that a fourteenth granule takes past the body's
256 bytes, one that it does not. -/
theorem witness_OtherFrames :
    RecordsOk [] ∧ RecordsOk (List.replicate 11 { topic := 1, revision := 0, first := 0, data := [List.replicate 16 0] }) ∧
      RecordsOk [{ topic := 1, revision := 0, first := 0, data := List.replicate 14 (List.replicate 16 0) }] ∧
      256 < 1 + 6 + 22 + 6 + 16 * (14 : Byte).toNat ∧ ¬ 256 < 1 + 6 + 0 + 6 + 16 * (14 : Byte).toNat := by
  unfold RecordsOk; decide +kernel

/-- R133, R179: a JOIN_REQUEST with a count, an UPLINK without records and a beacon of phase 8 are of no use; kinds 0 and 5, 17
grants, 12 records, and granule counts of 0 and 15 are bad whatever the CRC. -/
theorem test_other_frames :
    ([[0x83, 40, 9, 0, 1], [0x40, 1, 9, 0, 0, 0, 0], [0x20, 9, 8, 0, 1, 0, 0]].all fun b => classify (withCrc b) == .foreign) ∧
    ([[0x00], [0xA0, 1, 2, 3], [0x31, 9, 0, 0, 1, 0, 0], [0x6C, 9, 40, 0], [0x61, 9, 40, 0, 0, 1, 0, 0, 0, 0],
      [0x61, 9, 40, 0, 0, 1, 0, 0, 0, 15]].all fun b => classify (withCrc b) == .bad) := by decide +kernel

/-- R180: every bit above the topic of each record's topic word, and every spare bit of a beacon's flags, is set. -/
theorem test_spare_bits_on_reception :
    (let b : Beacon := { node := 9, phase := 3, cycle := 6, accepting := true, closing := false, grants := [], acks := [] }
     classify (withCrc (b.bodyUnder 0x3F)) = .beacon b) ∧
    (let d : Downlink := { node := 9, dest := 40, seq := 1, records := List.replicate 2 {
       topic := 5, revision := 1, first := 0, data := [List.replicate 16 7] } }
     classify (withCrc (d.bodyUnder fun _ => 0x3F)) = .downlink d ∧ d.bodyUnder (fun _ => 0) = d.body) := by decide +kernel

/-- A frame being taken, with a radio level. -/
def taking (s : State) (phi : BitVec 40) (level : Nat) (down : Option Nat) : State :=
  { s with fe := { s.fe with rx := some { phi := phi, level := level, down := down, wrapped := false } } }

/-- A beacon of node 9 in slot 3 with an ack for car 40. -/
def beacon9 (cycle : Word) : Beacon :=
  { node := 9, phase := 3, cycle := cycle, accepting := true, closing := false
    grants := [{ car := 40, first := 8, count := 4, kind := .up }], acks := [{ car := 40, base := 5, map := 1 }] }

theorem beacon9_reads : classify (withCrc (beacon9 6).body) = .beacon (beacon9 6) := by decide +kernel

/-- Beacons of the numbers that no node has. -/
theorem witness_NoSuchNode : ∀ n ∈ [0, 255],
    let b := { beacon9 6 with node := n }
    let s := taking (linked up .search [node 9 100 .none false, node 8 100 .none false]) 0 100 none
    Receiving s { phi := 0, level := 100, down := none, wrapped := false } (withCrc b.body) (.beacon b) ∧ NeighbourLaw s ∧
      ∀ e ∈ s.link.table, e.node ≠ b.node := by
  intro n hn
  simp only [List.mem_cons, List.not_mem_nil, or_false] at hn
  rcases hn with rfl | rfl <;> exact ⟨⟨rfl, by decide +kernel⟩, two_nodes _ _ _ rfl (by decide), by decide⟩

/-- A known node in SERVED; an unknown one with room; a full table whose weakest entry of role NONE is stronger, and one
whose weakest is weaker. -/
theorem witness_BeaconIsScored :
    Receiving (taking (linked up .served [node 9 100 .serving false, node 8 100 .none false]) 0 100 none)
      { phi := 0, level := 100, down := none, wrapped := false } (withCrc (beacon9 6).body) (.beacon (beacon9 6)) ∧
    NeighbourLaw (taking (linked up .served [node 9 100 .serving false, node 8 100 .none false]) 0 100 none) ∧
    (∀ score ∈ [119, 120],
      let s := taking (linked up .search ((List.range 12).map fun n => node (n + 20) score .none true)) 0 100 none
      NeighbourLaw s ∧ 12 ≤ s.link.table.length ∧ (∀ e ∈ s.link.table, e.node ≠ (beacon9 6).node) ∧
        min 255 ((100 - s.params.f) * s.params.s) = 120) ∧
    1 ≤ (beacon9 6).node ∧ (beacon9 6).node ≤ 254 := by
  refine ⟨⟨rfl, beacon9_reads⟩, two_nodes _ _ _ rfl (by decide), ?_, by decide⟩
  intro score h
  simp only [List.mem_cons, List.not_mem_nil, or_false] at h
  rcases h with rfl | rfl <;> (unfold NeighbourLaw NodesLaw; decide +kernel)

/-- In SERVED a beacon of the serving node that acknowledges a frame, with an entry it carried, changed in flight or not. -/
theorem witness_BeaconAcknowledges : ∀ x ∈ [GranState.inFlight, .inFlightAgain],
    let w := { onWrite with pub := { onWrite.pub with states := [x] } }
    let l := linked (put up 1 w) .served [node 9 100 .serving false, node 8 100 .none false]
    let e := entry 1 1 1 1 (some 5)
    let s := taking { l with
      link := { l.link with car := 40 }
      fe := { l.fe with sent := [{ seq := 5, cycle := 0, carried := [(1, 0)] }, { seq := 6, cycle := 0, carried := [] }] }
      journal := { entries := [e, entry 2 1 0 0 none], hold := false } } 0 100 none
    Receiving s { phi := 0, level := 100, down := none, wrapped := false } (withCrc (beacon9 6).body) (.beacon (beacon9 6)) ∧
      NeighbourLaw s ∧ s.link.state = .served ∧ (∃ y, s.link.holder .serving = some y ∧ y.node = (beacon9 6).node) ∧
      (s.journal.entries.map fun e => (e.win, e.first)).Nodup ∧ e ∈ s.journal.entries ∧
      (s.fe.sent.any fun f => ((beacon9 6).acks.any fun a => a.car == s.link.car && a.car != 0 &&
        decide ((a.base - f.seq).toNat ≤ 15) && a.map.getLsbD (a.base - f.seq).toNat) &&
        f.carried.contains (e.win, e.first) && decide (e.seq = some f.seq)) = true ∧ s.win e.win = some w ∧
      e.Covers e.win 0 ∧ (∀ y ∈ s.journal.entries, y.Covers e.win 0 → y = e) ∧ w.granState 0 = x := by
  intro x _
  refine ⟨⟨rfl, beacon9_reads⟩, two_nodes _ _ _ rfl (by decide), rfl, ⟨_, rfl, rfl⟩, ?_, List.mem_cons_self, ?_,
    win_put up 1 _, ⟨rfl, Nat.le_refl 0, Nat.le_refl 0⟩, ?_, rfl⟩
  · show ([(1, 0), (2, 0)] : List (WinNo × Nat)).Nodup; decide
  · rfl
  · intro y h c
    have h : y ∈ [entry 1 1 1 1 (some 5), entry 2 1 0 0 none] := h
    simp only [List.mem_cons, List.not_mem_nil, or_false] at h
    rcases h with rfl | rfl
    · rfl
    · exact absurd c.1 (by decide)

/-- The phase a beacon of slot 3 is expected at with the default lambda. -/
def expected3 : BitVec 40 := BitVec.ofNat 40 (3 * 2 ^ 34 + 96 * 2 ^ 19)

/-- Errors of 16384 and 16385 fine units with the reference; a first beacon in SEARCH; a node that is not the
reference. -/
theorem witness_BeaconSetsTheTimer :
    (∀ off ∈ [16384, 16385], ∀ run ∈ [0, 1, 2],
      let s := { taking (linked up .served [node 9 100 .serving false, node 8 100 .none false])
        (expected3 - BitVec.ofNat 40 (off * 2 ^ 19)) 100 none with timer := { up.timer with run := run } }
      Receiving s { phi := expected3 - BitVec.ofNat 40 (off * 2 ^ 19), level := 100, down := none, wrapped := false }
        (withCrc (beacon9 6).body) (.beacon (beacon9 6)) ∧
      NeighbourLaw s ∧ s.timer.run = run) ∧
    (∀ off ∈ [16384, 16385],
      ((expected3 - (expected3 - BitVec.ofNat 40 (off * 2 ^ 19))).toInt.tdiv (2 ^ 19)).natAbs = off) ∧
    expected3 = BitVec.ofNat 40 ((beacon9 6).phase * 2 ^ 34 + up.params.lam * 2 ^ 19) ∧
    (let s := taking (linked up .search [node 9 100 .none false, node 8 100 .none false]) 0 100 none
     Receiving s { phi := 0, level := 100, down := none, wrapped := false } (withCrc (beacon9 6).body)
       (.beacon (beacon9 6)) ∧ NeighbourLaw s ∧ s.timer.timing = .free ∧ s.timer.coarse = false) ∧
    (let s := taking (linked up .off [node 9 100 .none false, node 8 100 .none false]) 0 100 none
     Receiving s { phi := 0, level := 100, down := none, wrapped := false } (withCrc (beacon9 6).body)
       (.beacon (beacon9 6)) ∧ s.link.state ≠ .search) :=
  ⟨fun _ _ _ _ => ⟨⟨rfl, beacon9_reads⟩, two_nodes _ _ _ rfl (by decide), rfl⟩, by decide +kernel, by decide,
   ⟨⟨rfl, beacon9_reads⟩, two_nodes _ _ _ rfl (by decide), rfl, rfl⟩, ⟨rfl, beacon9_reads⟩, by decide⟩

/-- The target's beacon of slot 3 measured this many fine units ahead, with the phase and trim as given. -/
def steered (phi : Nat) (trim : Int) (last : Nat) : State :=
  let l := linked up .joining (nodesOf .joining)
  { l with timer := { l.timer with phi := BitVec.ofNat 40 phi, trim := trim, last := last },
           status := { l.status with record := 0xFFF } }

/-- Forward steps of half the error: within slot 0, into slot 1, into slot 1 begun before, and over the wrap. -/
theorem witness_StepRows : ∀ x ∈ [(0, 0, 0), (2 ^ 34 - 1, 0, 1), (2 ^ 34 - 1, 1, 1), (2 ^ 40 - 1, 63, 64)],
    let u := steered x.1 0 x.2.1
    u.link.state = .joining ∧ (∃ e, u.link.holder .target = some e ∧ e.node = 9) ∧ u.params.kp ≤ 16 ∧
      u.timer.last = x.2.1 ∧ ((16384 * u.params.kp : Int).tdiv 16) = 8192 ∧
      (u.timer.phi.toNat + 8192 * 2 ^ 19) / 2 ^ 34 = x.2.2 := by
  intro x hx
  refine ⟨rfl, ⟨_, rfl, rfl⟩, (show 8 ≤ 16 by decide), rfl, (show ((16384 * 8 : Int).tdiv 16) = 8192 by decide), ?_⟩
  show ((BitVec.ofNat 40 x.1).toNat + 8192 * 2 ^ 19) / 2 ^ 34 = x.2.2
  revert x; decide +kernel

/-- R96, R97, R100: the slot that the step lands in is begun and is L, and the clamped trim raises TRIM_LIMIT; within a slot
and short of the limit neither happens. -/
theorem test_fine_step_events :
    ([(2 ^ 34 - 1, (16384 : Int)), (0, 16)].map fun x =>
      let t := (steered x.1 120 0).timeBeacon 9 3 7 (expected3 - BitVec.ofInt 40 (x.2 * 2 ^ 19))
      (slotOf t.timer.phi, t.timer.last, t.timer.trim, t.timer.cycle, t.fe.listening, t.status.pending)) =
    [(1, 1, 127, 7, true, 0x200), (0, 0, 121, 7, false, 0)] := by decide +kernel

/-- Small errors of the reference: a step in the slot, a step back, and a step over the wrap with an ENBW waiting. -/
theorem witness_SmallErrors :
    (∀ ahead ∈ [16384, -16384],
     let s := taking (linked up .joining (nodesOf .joining)) (expected3 - BitVec.ofInt 40 (ahead * 2 ^ 19)) 100 none
     Receiving s { phi := expected3 - BitVec.ofInt 40 (ahead * 2 ^ 19), level := 100, down := none, wrapped := false }
         (withCrc (beacon9 6).body) (.beacon (beacon9 6)) ∧
       NeighbourLaw s ∧ s.link.state = .joining ∧ (∃ e, s.link.holder .target = some e ∧ e.node = (beacon9 6).node) ∧
       s.params.kp ≤ 16 ∧ s.timer.phi = 0 ∧
       (expected3 - (expected3 - BitVec.ofInt 40 (ahead * 2 ^ 19))).toInt.tdiv (2 ^ 19) = ahead) ∧
    (let l := linked (put up 1 { onWrite with state := .pending }) .joining (nodesOf .joining)
     let s := taking { l with timer := { l.timer with phi := BitVec.ofNat 40 (2 ^ 40 - 1) }, mbox := { l.mbox with work := .enbw 1 } }
       (expected3 - BitVec.ofInt 40 (16384 * 2 ^ 19)) 100 none
     Receiving s { phi := expected3 - BitVec.ofInt 40 (16384 * 2 ^ 19), level := 100, down := none, wrapped := false }
         (withCrc (beacon9 6).body) (.beacon (beacon9 6)) ∧
       NeighbourLaw s ∧ s.held = false ∧ s.due = [] ∧ s.win 1 = some { onWrite with state := .pending } ∧
       s.mbox.work = .enbw 1 ∧ 2 ^ 40 ≤ (s.timer.phi.toNat : Int) + (16384 * s.params.kp : Int).tdiv 16 * 2 ^ 19) := by
  refine ⟨fun ahead h => ⟨⟨rfl, beacon9_reads⟩, two_nodes _ _ _ rfl (show 9 ≠ 8 by decide), rfl, ⟨_, rfl, rfl⟩,
    (show 8 ≤ 16 by decide), rfl, ?_⟩, ⟨rfl, beacon9_reads⟩, two_nodes _ _ _ rfl (show 9 ≠ 8 by decide), rfl, rfl,
    win_put up 1 _, rfl, ?_⟩
  · revert ahead; decide +kernel
  · show (2 : Int) ^ 40 ≤ ((BitVec.ofNat 40 (2 ^ 40 - 1)).toNat : Int) + ((16384 * 8 : Int)).tdiv 16 * 2 ^ 19
    decide +kernel

/-- A downlink frame with one record for topic 6. -/
def down9 (dest : Nat) (seq : BitVec 8) : Downlink :=
  { node := 9, dest := dest, seq := seq
    records := [{ topic := 6, revision := 4, first := 0, data := [List.replicate 16 7] }] }

theorem down9_reads : ∀ dest ∈ [0, 40, 41], ∀ seq ∈ [0, 1, 127, 128, 241, 255],
    classify (withCrc (down9 dest seq).body) = .downlink (down9 dest seq) := by decide +kernel

/-- Accepted directed and for all, at the edges of the receive record; and for another car. -/
theorem witness_DownlinkIsAccepted : ∀ dest ∈ [0, 40, 41], ∀ seq ∈ ([0, 1, 127, 128, 241, 255] : List (BitVec 8)),
    ∀ map ∈ [0, 1],
    let t := linked up .served [node 9 100 .serving false]
    let s := taking { t with link := { t.link with car := 40 }, fe := { t.fe with rxMap := map } } 0 100 (some dest)
    Receiving s { phi := 0, level := 100, down := some dest, wrapped := false } (withCrc (down9 dest seq).body)
      (.downlink (down9 dest seq)) ∧
    (dest ≠ 41 → (down9 dest seq).dest = s.link.car ∨ (down9 dest seq).dest = 0) ∧
    ∃ e, s.link.table.find? (fun e => decide (e.role = .serving)) = some e ∧ e.node = (down9 dest seq).node := by
  intro dest h seq k map _
  refine ⟨⟨rfl, down9_reads dest h seq k⟩, ?_, _, rfl, rfl⟩
  intro x
  show dest = 40 ∨ dest = 0
  simp only [List.mem_cons, List.not_mem_nil, or_false] at h
  omega

/-- A frame with a bad CRC, a foreign frame, and a delimiter that finds the part listening and one that does not. -/
theorem witness_OtherReception :
    (∃ s r, Receiving s r [1, 2, 3] .bad) ∧ (∃ s r, Receiving s r (withCrc [0x80, 40, 9, 0, 1]) .foreign) ∧
    (let s := { up with link := { up.link with state := .search, lock := true }, fe := { up.fe with listening := true } }
     s.held = false ∧ s.link.state ≠ .off ∧ s.link.lock = true ∧ s.fe.listening = true ∧ s.fe.rx = none ∧
       s.fe.delivery.length < 2 ∧ s.pending = []) ∧ up.fe.listening = false :=
  ⟨⟨taking up 0 0 none, _, rfl, by decide +kernel⟩, ⟨taking up 0 0 none, _, rfl, by decide +kernel⟩,
   ⟨rfl, by decide, rfl, rfl, rfl, by decide, rfl⟩, rfl⟩

/-- A read of a best-effort record, of one whose window was purged, and of one that is kept for its acknowledgement, each of
the frame being sent and left over from a frame cut off; a frame with and without a read left. -/
theorem witness_TransmissionSteps :
    (∀ best purged ofFrame, ∀ w ∈ [onWrite, onTrigger],
      let j : ReadJob := { win := 1, first := 0, last := 0, bestEffort := best, ofFrame := ofFrame, purged := purged }
      let s := { put up 1 w with port := some .frame, fe := { up.fe with reads := [j], tx := some { body := [0x41] } } }
      s.port = some .frame ∧ s.fe.writing = none ∧ s.fe.reads = j :: [] ∧ s.fe.tx = some { body := [0x41] } ∧ s.win 1 = some w ∧
        (w.defn.body = .publish { topic := 5, cls := 1, mode := .onWrite, refresh := 2 } ∨
          w.defn.body = .publish { topic := 5, cls := 1, mode := .onTrigger 14, refresh := 2 }) ∧
        0 < w.pub.states.length) ∧
    (let s := { up with fe := { up.fe with tx := some { body := [0x41] } } }
     s.fe.tx = some { body := [0x41] } ∧ ∀ j ∈ s.fe.reads, j.ofFrame = false) := by
  refine ⟨fun best purged ofFrame w h => ⟨rfl, rfl, rfl, rfl, win_put up 1 w, ?_⟩, rfl, fun _ h => nomatch h⟩
  simp only [List.mem_cons, List.not_mem_nil, or_false] at h
  rcases h with rfl | rfl <;> decide

/-- A delivery record for topic 6 of one granule. -/
def rec6 (revision : Word) (first : Nat) : Delivery :=
  { topic := 6, revision := revision, first := first, data := [List.replicate 16 7] }

/-- A record held for delivery, under the Frame Engine's grant. -/
def holding (s : State) (d : Delivery) : State := { s with port := some .frame, fe := { s.fe with delivery := [[d]] } }

/-- A record for no window; for an ungrouped window, newer by 32767, equal, older by 32768 and past the window's end; for
a group's only member, with no staging and with one of the same, of an older and of a newer revision. -/
theorem witness_DeliveryRecordIsApplied :
    (up.fe.writing = none ∧ (holding up (rec6 4 0)).fe.delivery = (rec6 4 0 :: []) :: [] ∧ ∀ n, up.win n = none) ∧
    ∀ group ∈ [(0 : GroupNo), 7], ∀ revision ∈ [0, 32767, 32768], ∀ first ∈ [0, 1],
      ∀ staging ∈ [none, some (32767 : Word), some 0, some 32768],
      let v := live (subBody (.fallback 7) false group) (if group = 0 then [3] else [2, 3])
      let w := { v with ov := { v.ov with revision := if group = 0 then some 0 else none } }
      let s := holding { put up 1 w with groups := up.groups.set group { revision := some 0, staging := staging, age := 0 } }
        (rec6 revision first)
      s.fe.writing = none ∧ s.fe.delivery = (rec6 revision first :: []) :: [] ∧ s.port = some .frame ∧
        s.fe.reads = [] ∧ MemoryLaw s ∧ s.win 1 = some w ∧ w.state = .live ∧
        w.defn.body = .subscribe { topic := 6, hold := 3, action := .fallback 7, releaseOnWrite := false, group := group } ∧
        (∀ m, m ≠ 1 → s.win m = none) ∧ (∀ g ∈ (rec6 revision first).data, g.length = 16) ∧
        s.groups[group].revision = some 0 ∧ s.groups[group].staging = staging ∧ w.mapA.Nodup ∧ w.mapB.Nodup ∧
        w.mapA.length = 1 ∧ (group ≠ 0 → w.mapB.length = 1) ∧ w.ov.present.length = 1 ∧ w.ov.staged.length = 1 := by
  refine ⟨⟨rfl, rfl, no_places up rfl⟩, fun group h revision _ first _ staging _ => ?_⟩
  simp only [List.mem_cons, List.not_mem_nil, or_false] at h
  rcases h with rfl | rfl <;>
    refine ⟨rfl, rfl, rfl, rfl, ⟨rfl, rfl, rfl⟩, win_put up 1 _, rfl, rfl, fun m k => ?_, fun g h => by rw [List.mem_singleton.1 h]; rfl, rfl, rfl,
      by decide,
      by decide, rfl, by decide, rfl, rfl⟩ <;>
    · cases e : (put up 1 _).win m with
      | none => exact e
      | some v => exact absurd (put_win e).1 k

/-- A record being written, ungrouped and joined to a staging, before its granule and before its last step, its window LIVE and
CLOSING, the group wholly staged and not; and a record whose staging is superseded. -/
theorem witness_DeliveryGoesOn :
    (∀ x ∈ [((0 : GroupNo), none), (7, some (4 : Word))], ∀ written ∈ [0, 1], ∀ staged, ∀ state ∈ [WindowState.live, .closing],
      let v := live (subBody (.fallback 7) false x.1) [2, 3]
      let w := { v with state := state, ov := { v.ov with staged := [staged] } }
      let h := holding { put up 1 w with groups := up.groups.set x.1 { revision := none, staging := x.2, age := 0 } } (rec6 4 0)
      let s := { h with fe := { h.fe with writing := some { win := 1, written := written, staging := x.2 } } }
      s.fe.writing = some { win := 1, written := written, staging := x.2 } ∧ s.fe.delivery = (rec6 4 0 :: []) :: [] ∧
        s.win 1 = some w ∧ w.state = state ∧ MemoryLaw s ∧ s.groups[w.group].staging = x.2 ∧
        (rec6 4 0).data[written]? = (if written = 0 then some (List.replicate 16 7) else none) ∧
        (staged = true → ∀ m y, m ≠ 0 → s.win m = some y → ∀ g, g < y.defn.length / 16 → y.ov.staged.getD g false = true) ∧
        (staged = false → w.ov.staged.getD 0 false = false)) ∧
    (∀ later, let w := live (subBody (.fallback 7) false 7) [2, 3]
     let h := holding { put up 1 w with groups := up.groups.set 7 { revision := none, staging := later, age := 0 } } (rec6 4 0)
     let s := { h with fe := { h.fe with writing := some { win := 1, written := 0, staging := some 4 } } }
     s.win 1 = some w ∧ s.groups[w.group].staging = later) ∧
    (let w := live (subBody .hold false 0) [3]
     let s := { put up 1 w with
       port := some .frame, fe := { up.fe with writing := some { win := 1, written := 0, staging := none } }
       mbox := { up.mbox with state := .busy, code := 0xA103, work := .checks, snapshot := [(1, false)] } }
     s.held = false ∧ s.rst.phase = .running ∧ s.port = some .frame ∧ s.fe.writing.isSome = true ∧ s.mbox.state = .busy ∧
       s.mbox.code = 0xA103 ∧ s.mbox.work = .checks ∧
       s.mbox.snapshot[0]? = some (BitVec.ofNat 16 (1 : WinNo).val, false) ∧ s.win 1 = some w ∧ w.state = .live) := by
  refine ⟨fun x hx written hw staged state _ => ?_, fun later => ⟨win_put up 1 _, rfl⟩,
    by decide, rfl, rfl, rfl, rfl, rfl, rfl, rfl, win_put up 1 _, rfl⟩
  refine ⟨rfl, rfl, win_put up 1 _, rfl, ⟨rfl, rfl, rfl⟩, ?_, ?_, ?_, ?_⟩
  · simp only [List.mem_cons, List.not_mem_nil, or_false] at hx
    rcases hx with rfl | rfl <;> rfl
  · simp only [List.mem_cons, List.not_mem_nil, or_false] at hw
    rcases hw with rfl | rfl <;> rfl
  · rintro rfl m y - e g hg
    obtain ⟨rfl, rfl⟩ := put_win (show (put up 1 _).win m = some y from e)
    have : g < 16 / 16 := hg
    obtain rfl : g = 0 := by omega
    rfl
  · rintro rfl; rfl

/-- RON low; a rise of LOCK in STARTING; a fall in every link state beyond it, with a best-effort read of the frame being sent, under the
Frame Engine's grant or not, changed in flight or not. -/
theorem witness_LockChanges : up.ron = false ∧
    (∀ work ∈ [Work.join, .none],
      let s := { up with link := { up.link with state := .starting }, mbox := { up.mbox with work := work } }
      s.link.lock = false ∧ s.link.state = .starting ∧ s.mbox.work = work) ∧
    (∀ state ∈ [LinkState.search, .joining, .served, .handoff], ∀ lock,
      let s := { linked up state (nodesOf state) with
        link := { (linked up state (nodesOf state)).link with lock := lock } }
      s.link.lock = lock ∧ s.link.state ≠ .off ∧ s.link.state ≠ .starting ∧ NeighbourLaw s ∧ RoleLaw s ∧
        (state = .served ∨ state = .handoff → ∃ e, s.link.holder .serving = some e)) ∧
    (∀ x ∈ [GranState.inFlight, .inFlightAgain], ∀ port ∈ [some PortGrant.frame, none],
      let w := { onWrite with pub := { onWrite.pub with states := [x] } }
      let j : ReadJob := { win := 1, first := 0, last := 0, bestEffort := true, ofFrame := true, purged := false }
      let s := { put up 1 w with port := port, fe := { up.fe with reads := [j], tx := some { body := [0x41] } } }
      CoverLaw s ∧ j ∈ s.fe.reads ∧ (j.ofFrame && j.bestEffort && !j.purged) = true ∧ s.win 1 = some w ∧
        w.granState 0 = x ∧ s.port = port) := by
  refine ⟨rfl, fun _ _ => ⟨rfl, rfl, rfl⟩, fun state h lock => ⟨rfl, ?_, ?_, (lawful_nodes _ rfl).1, (lawful_nodes _ rfl).2, ?_⟩,
    fun x hx port _ => ⟨⟨⟨.nil, List.pairwise_singleton _ _, nofun⟩, nofun, fun j hj _ _ => ?_, fun n w g e _ c => ?_⟩,
      List.mem_cons_self, rfl, win_put up 1 _, rfl, rfl⟩⟩
  · simp only [List.mem_cons, List.not_mem_nil, or_false] at h
    rcases h with rfl | rfl | rfl | rfl <;> (intro e; cases e)
  · simp only [List.mem_cons, List.not_mem_nil, or_false] at h
    rcases h with rfl | rfl | rfl | rfl <;> (intro e; cases e)
  · rintro (rfl | rfl) <;> exact ⟨_, rfl⟩
  · obtain rfl := List.mem_singleton.1 hj
    refine ⟨_, win_put up 1 _, ⟨.inl rfl, rfl, (show 0 < 1 by decide)⟩, fun g a b => ?_⟩
    obtain rfl : g = 0 := Nat.le_zero.1 b
    simp only [List.mem_cons, List.not_mem_nil, or_false] at hx
    rcases hx with rfl | rfl
    · exact .inl rfl
    · exact .inr rfl
  · obtain ⟨rfl, rfl⟩ := put_win (show (put up 1 _).win n = some w from e)
    cases g with
    | zero => exact absurd ⟨rfl, rfl, rfl, Nat.le_refl 0, Nat.le_refl 0⟩ (c _ List.mem_cons_self)
    | succ g => exact .inl rfl

/-! ### Witnesses: the invariants -/

/-- A PUBLISH window of three granules: one waiting, one in flight, one idle. -/
def three : Window :=
  let v := ({ base := 0x10000, length := 48, body := pubBody .onWrite, startEnabled := false } : Definition).newWindow [0, 1, 2]
  { v with state := .live, pub := { v.pub with states := [.waiting, .inFlight, .idle] } }

/-- A window that holds granules 0 to 2, a full FIFO with a loss set, a drain step in progress, a waiting entry and one in
flight with its record, the serving node, a frame being taken, and bytes in each memory. -/
def lawful : State :=
  { put up 1 three with
    tap := { fifo := List.replicate 64 (.loss 0), loss := 1, peak := 64, learn := none }
    arbiter := .drain, port := some (.drain { learn := some request, entry := true })
    pool := { mem := [(48, 1)], free := List.range' 3 2045, usable := true }
    win0 := { mem := [(0, 1), (255, 2)], bad := List.replicate 128 false }
    store := .holds [(0, 1), (8191, 2)]
    journal := { entries := [entry 1 1 0 0 none, { entry 1 1 1 0 (some 4) with first := 1, last := 1 }], hold := false }
    timer := { up.timer with trim := -128 }
    link := { up.link with state := .served, table := [node 9 200 .serving true, node 254 0 .none false] }
    fe := { up.fe with
      sent := [{ seq := 4, cycle := 7, carried := [(1, 1)] }]
      rx := some { phi := 0, level := 0, down := none, wrapped := false }, delivery := [[]] }
    pending := [.lockRise] }

theorem lawful_win {n : WinNo} {w : Window} (h : lawful.win n = some w) : n = 1 ∧ w = three :=
  put_win (show (put up 1 three).win n = some w from h)

/-- The coverage law holds of it, with an entry of each kind and a granule that nothing covers. -/
theorem lawful_covers : CoverLaw lawful := by
  refine ⟨⟨?_, .nil, nofun⟩, fun e h => ?_, nofun, fun n w g h c _ => ?_⟩
  · refine List.pairwise_pair.2 fun n g a b => ?_
    have : g ≤ 0 := a.2.2
    have : 1 ≤ g := b.2.1
    omega
  · have h : e ∈ [entry 1 1 0 0 none, { entry 1 1 1 0 (some 4) with first := 1, last := 1 }] := h
    simp only [List.mem_cons, List.not_mem_nil, or_false] at h
    rcases h with rfl | rfl
    · refine ⟨three, win_put up 1 three, ⟨.inl rfl, rfl, (show 0 < 3 by decide)⟩, fun g a b => ?_⟩
      obtain rfl : g = 0 := Nat.le_zero.1 b
      decide
    · refine ⟨three, win_put up 1 three, ⟨.inl rfl, rfl, (show 1 < 3 by decide)⟩, fun g a b => ?_⟩
      have a : 1 ≤ g := a
      have b : g ≤ 1 := b
      obtain rfl : g = 1 := by omega
      decide
  · obtain ⟨rfl, rfl⟩ := lawful_win h
    match g with
    | 0 => exact absurd ⟨rfl, Nat.le_refl 0, Nat.le_refl 0⟩ (c _ List.mem_cons_self)
    | 1 => exact absurd ⟨rfl, Nat.le_refl 1, Nat.le_refl 1⟩ (c _ (List.mem_cons_of_mem _ List.mem_cons_self))
    | 2 => exact .inl rfl
    | g + 3 => exact .inl rfl

/-- The premises of the statements on steps are met, and the step is taken. -/
theorem witness_EveryStepKeeps : TapLaw lawful ∧ PortLaw lawful ∧ MemoryLaw lawful ∧ TrimLaw lawful ∧ JournalLaw lawful ∧
    NeighbourLaw lawful ∧ FrameLaw lawful ∧ TableLaw lawful ∧ PoolLaw lawful ∧ WindowsLaw lawful ∧ ShapeLaw lawful ∧
    StartLaw lawful ∧ ClearLaw lawful ∧ RoleLaw lawful ∧ CoverLaw lawful ∧ CarryLaw lawful ∧ ∃ t, step lawful = .next t := by
  refine ⟨?_, ⟨?_, nofun, fun _ _ _ => by decide⟩, ⟨by decide, by decide, by decide⟩, by unfold TrimLaw; decide, ?_,
    two_nodes _ _ _ rfl (by decide), ?_, ⟨rfl, nofun⟩, ?_, ?_, ?_, nofun, nofun, ⟨rfl, rfl⟩, lawful_covers, ?_, _, rfl⟩
  · unfold TapLaw; decide
  · rintro r h
    cases h
    exact ⟨⟨rfl, rfl, .inl nofun⟩, rfl⟩
  · unfold JournalLaw EntriesLaw Entry.runOk; decide
  · unfold FrameLaw FramesLaw; decide
  · have perm : ∀ n, (List.range' 3 n ++ [0, 1, 2]).Perm (List.range (n + 3)) := fun n => by
      rw [List.range_eq_range', List.range'_succ, List.range'_succ, List.range'_succ]
      exact List.perm_append_comm
    have free : lawful.pool.free = List.range' 3 2045 := rfl
    have held : lawful.heldGranules = [0, 1, 2] := by decide +kernel
    have usable : lawful.pool.usable = true := rfl
    unfold PoolLaw
    rw [free, held, usable, if_pos rfl]
    exact perm 2045
  · intro n w h
    obtain ⟨rfl, rfl⟩ := lawful_win h
    exact ⟨by unfold Definition.rangeOk; decide +kernel, fun m v a b => absurd (lawful_win b).1 a⟩
  · intro n w h
    obtain ⟨rfl, rfl⟩ := lawful_win h
    constructor <;> rfl
  · refine ⟨by decide, fun e h q hq => ?_, by decide⟩
    have h : e ∈ [entry 1 1 0 0 none, { entry 1 1 1 0 (some 4) with first := 1, last := 1 }] := h
    simp only [List.mem_cons, List.not_mem_nil, or_false] at h
    rcases h with rfl | rfl <;> cases hq
    exact ⟨_, List.mem_cons_self, rfl, List.mem_cons_self⟩

/-! ### The spec's worked figures -/

/-- The check value of a CRC with this polynomial, start value and bit order (R132), and the start value kept by an empty
body. -/
theorem test_crc : crc16 [0x31, 0x32, 0x33, 0x34, 0x35, 0x36, 0x37, 0x38, 0x39] = 0x29B1 ∧ crc16 [] = 0xFFFF := by
  decide +kernel

/-- 01, "Examples of read decisions": window 0 at 0x3FFF00 with the straps at 3 and the mailbox DONE reads 0x7F02 with odd
parity. -/
theorem test_status_word_done :
    let s := { up with straps := { mb := 3, paren := true, parodd := true }, mbox := { up.mbox with state := .done } }
    ∃ t, exec (.cPortRead (at_ 0x3FFF00 0x1234)) s = .next t ∧
      t.bus.map (fun b => (b.cData, b.cParLow, b.cParHigh)) = some (0x7F02, false, false) :=
  ⟨_, rfl, by decide +kernel⟩

/-- 07, "Worked case: one node's score". -/
theorem test_score : sampleOf up.params 110 = 140 ∧ moveScore up.params 120 140 = 125 ∧
    moveScore up.params 125 (sampleOf up.params 70) = 109 ∧
    (Neighbour.miss up.params.p { node 9 109 .none false with misses := 0 }).score = 85 ∧
    moveScore up.params 85 (sampleOf up.params 30) = 64 ∧ sampleOf up.params 200 = 255 ∧
    moveScore up.params 64 255 = 112 := by decide

/-- 07, "Worked sequence: a join with one backoff". -/
theorem test_shift_register : lfsrSeed 5 = 0x0505 ∧ lfsrStep 0x0505 = 0x0282 ∧ lfsrStep 0x0282 = 0x0141 ∧
    lfsrStep 0x0141 = 0x80A0 := by decide

/-- 06, "Worked figures: fine correction". -/
theorem test_fine_correction :
    (fineStep 8 300, trimChange 4 300) = (150, 19) ∧ (fineStep 8 (-37), trimChange 4 (-37)) = (-18, -2) ∧
    (fineStep 8 200, trimChange 4 200, clampTrim (120 + 13)) = (100, 13, 127) ∧
    errorTicks (expectedPhase 96 3) (expectedPhase 96 3 - BitVec.ofNat 40 (300 * 524288 + 12345)) = 300 ∧
    errorTicks (expectedPhase 96 3) (expectedPhase 96 3 + BitVec.ofNat 40 (37 * 524288 + 5)) = -37 := by
  decide +kernel

/-- 05, the table of R75. -/
theorem test_revisions : revOrder (some 65530) 5 = .newer ∧ revOrder (some 100) 32867 = .newer ∧
    revOrder (some 100) 32868 = .older ∧ revOrder (some 5) 65530 = .older ∧ revOrder (some 812) 812 = .same ∧
    revOrder none 7 = .newer := by decide

/-- 08, "Worked sequence: matching an ack entry". -/
theorem test_ack_entry : ([88, 89, 90, 91, 92, 93].map fun n =>
    AckEntry.acks { car := 40, base := 92, map := 0x000B } { seq := n, cycle := 0, carried := [] }) =
      [false, true, false, true, true, false] := by decide

/-- 08, "Worked sequence: the receive record". -/
theorem test_receive_record :
    (([40, 41, 43, 42, 60, 44, 60] : List (BitVec 8)).foldl (fun l n =>
      match l with
      | [] => []
      | s :: l => s.receiveSeq n :: s :: l) [up]).reverse.map (fun s => (s.fe.rxBase, s.fe.rxMap)) =
    [(0, 0), (40, 0x0001), (41, 0x0003), (43, 0x000D), (43, 0x000F), (60, 0x0001), (60, 0x0001), (60, 0x0001)] := by
  decide +kernel

/-- No word spells a command, and a word put in front changes nothing (notes/assumptions/9.md). -/
theorem test_no_word : decodeTableWord 16 0xA101 = none ∧ State.reset.withFetchWord 16 0xA101 = State.reset :=
  ⟨rfl, rfl⟩

end Sys2Proof.Tests

end
end

section
/-! PROOFS. The bus path (R2): C_PORT_WRITE and C_PORT_READ carry their cycle as it was presented, and no other command
touches the bus pins. Most operations have this from their frames `Steady` and `Placed`; added here are the operations these
frames do not cover (resets, start-up, mailbox commands and the port's own steps), then every row of the table. -/

section

set_option Elab.async false


namespace Sys2Proof.Machine

variable {s t u : State}

/-! ### Frames and choices -/

theorem Steady.bus (h : Steady s t) : t.bus = s.bus := h.stable.bus

/-- Either branch of a choice. -/
theorem bus_ite {c : Prop} [Decidable c] (h : t.bus = s.bus) (k : u.bus = s.bus) :
    (if c then t else u).bus = s.bus := by
  split <;> assumption

/-! ### Resets and start-up -/

@[simp] theorem setRst_bus (s : State) (r : ResetUnit) : (s.setRst r).bus = s.bus := rfl
@[simp] theorem newPool_bus (s : State) : s.newPool.bus = s.bus := by simp only [State.newPool]
@[simp] theorem release_bus (s : State) : s.release.bus = s.bus := rfl

theorem freeAll_bus (s : State) : s.freeAll.bus = s.bus := by
  obtain ⟨-, -, bus, -, -⟩ := freeAll_rest s
  exact bus

theorem installAll_bus (s : State) (l : List RawDefn) : (s.installAll l).bus = s.bus := by
  obtain ⟨-, -, bus⟩ := installAll_rest s l
  exact bus

@[simp] theorem beginReset_bus (s : State) (k : ResetKind) : (s.beginReset k).bus = s.bus := by
  have freed : s.stopWrite.freeAll.bus = s.bus := (freeAll_bus _).trans (stopWrite_placed s).bus
  unfold State.beginReset
  generalize s.stopWrite.freeAll = u at freed ⊢
  exact freed

theorem powerUp_bus (s : State) : s.powerUp.bus = s.bus := by simp [State.powerUp]

theorem afterPins_bus (s : State) (r : ResetUnit) : (s.afterPins r).bus = s.bus := bus_ite rfl rfl

theorem readProfile_bus (s : State) : s.readProfile.bus = s.bus := installAll_bus _ _

theorem endStartUp_bus (s : State) : s.endStartUp.bus = s.bus := bus_ite rfl rfl

theorem finishStartUp_bus (s : State) : s.finishStartUp.bus = s.bus :=
  calc s.finishStartUp.bus
    _ = s.zeroAll.readProfile.startWindows.autoJoinNow.bus := endStartUp_bus _
    _ = s.zeroAll.readProfile.bus := ((startWindows_steady _).trans (autoJoinNow_steady _)).bus
    _ = s.bus := readProfile_bus s.zeroAll

/-! ### What the mailbox commands do at their checks -/

theorem awaitClearing_bus (s : State) (l : List ClearItem) (d : List Byte) : (s.awaitClearing l d).bus = s.bus :=
  (awaitClearing_steady s l d).bus

theorem refuseDefn_bus (s : State) (f : DefnFail) : (s.refuseDefn f).bus = s.bus := by
  cases f <;> rfl

theorem onWindow_bus (s : State) {f : WinNo → State} (h : ∀ n, (f n).bus = s.bus) : (s.onWindow f).bus = s.bus := by
  unfold State.onWindow
  split
  · exact h _
  · rfl

theorem setwBody_bus (s : State) : s.setwBody.bus = s.bus := by
  unfold State.setwBody
  split
  · exact refuseDefn_bus s _
  · rename_i n d _
    exact awaitClearing_bus (s.install n d) _ _

theorem enbwBody_bus (s : State) : s.enbwBody.bus = s.bus :=
  onWindow_bus s fun n => by
    split
    · exact bus_ite rfl rfl
    · rfl

theorem diswBody_bus (s : State) : s.diswBody.bus = s.bus :=
  onWindow_bus s fun n => by
    split
    · exact (close_steady s n).bus
    · rfl

theorem delwBody_bus (s : State) : s.delwBody.bus = s.bus :=
  onWindow_bus s fun n => by
    split
    · exact bus_ite rfl rfl
    · rfl

theorem qrywBody_bus (s : State) : s.qrywBody.bus = s.bus := onWindow_bus s fun _ => rfl

theorem pushBody_bus (s : State) : s.pushBody.bus = s.bus :=
  onWindow_bus s fun n => by
    split
    · exact bus_ite (changeAll_steady s n _).bus rfl
    · rfl

theorem peekBody_bus (s : State) : s.peekBody.bus = s.bus :=
  onWindow_bus s fun n => by
    split
    · rfl
    · refine bus_ite rfl ?_
      split <;> rfl

theorem setidBody_bus (s : State) : s.setidBody.bus = s.bus := by
  refine bus_ite ?_ rfl
  split <;> rfl

theorem joinBody_bus (s : State) : s.joinBody.bus = s.bus := bus_ite (bus_ite rfl rfl) rfl

theorem leaveBody_bus (s : State) : s.leaveBody.bus = s.bus := bus_ite rfl rfl

theorem cntrBody_bus (s : State) : s.cntrBody.bus = s.bus := bus_ite rfl (bus_ite (t := s.clearCounters) rfl rfl)

theorem alrtBody_bus (s : State) : s.alrtBody.bus = s.bus := by
  unfold State.alrtBody
  split <;> rfl

theorem loadProfile_bus (s : State) (p : Profile) : (s.loadProfile p).bus = s.bus :=
  calc (s.loadProfile p).bus
    _ = ((s.freeAll.clearGroups.applyProfile p).installAll p.defns).bus := awaitClearing_bus _ _ _
    _ = (s.freeAll.clearGroups.applyProfile p).bus := installAll_bus _ _
    _ = s.freeAll.bus := ((clearGroups_placed _).trans (applyProfile_placed _ p)).bus
    _ = s.bus := freeAll_bus s

theorem plodBody_bus (s : State) : s.plodBody.bus = s.bus := by
  refine bus_ite rfl (bus_ite rfl ?_)
  split
  · exact loadProfile_bus s _
  · rfl

theorem test1Body_bus (s : State) : s.test1Body.bus = s.bus := bus_ite rfl (bus_ite rfl (bus_ite rfl rfl))

theorem test2Body_bus (s : State) : s.test2Body.bus = s.bus := bus_ite rfl rfl

theorem rsetBody_bus (s : State) : s.rsetBody.bus = s.bus := by simp [State.rsetBody]

theorem checkWords_bus (s : State) (words : Nat) {body : State → State} (h : ∀ t : State, (body t).bus = t.bus) :
    (s.checkWords words body).bus = s.bus := by
  unfold State.checkWords
  split
  · rfl
  · exact h s

/-- A command leaves the bus as it was, whichever it is. -/
theorem commandActs_bus (s : State) : ∀ a ∈ commandActs, (a.2 s).bus = s.bus := by
  simp only [commandActs, List.forall_mem_cons, List.not_mem_nil, false_implies, implies_true, and_true]
  exact ⟨checkWords_bus s _ setwBody_bus, checkWords_bus s _ enbwBody_bus, checkWords_bus s _ diswBody_bus,
    checkWords_bus s _ delwBody_bus, checkWords_bus s _ qrywBody_bus, checkWords_bus s _ pushBody_bus,
    checkWords_bus s _ peekBody_bus, checkWords_bus s _ setidBody_bus, checkWords_bus s _ joinBody_bus,
    checkWords_bus s _ leaveBody_bus, checkWords_bus s _ fun _ => rfl, checkWords_bus s _ fun _ => rfl,
    checkWords_bus s _ fun _ => rfl, checkWords_bus s _ cntrBody_bus, checkWords_bus s _ alrtBody_bus,
    checkWords_bus s _ fun _ => rfl, checkWords_bus s _ plodBody_bus,
    bus_ite (checkWords_bus s 1 test2Body_bus) (checkWords_bus s 1 test1Body_bus), checkWords_bus s _ rsetBody_bus⟩

/-! ### The rows of the mailbox commands, and the end of a snapshot -/

theorem onCommand_bus (s : State) (names : State → Bool) {f : State → State} (h : ∀ t : State, (f t).bus = t.bus) :
    (s.onCommand names f).bus = s.bus := by
  obtain e | ⟨t, ht, -, e⟩ := onCommand_cases s names f <;> rw [e]
  obtain ⟨-, rfl⟩ | ⟨-, -, rfl⟩ := atChecks_cases ht
  · exact h s.takeSnapshot
  · exact h _

/-- A command's own row does at its checks what its entry of `commandActs` says. -/
theorem runCommand_bus (s : State) {code : Word} {words : Nat} {body : State → State}
    (h : (code, fun s : State => s.checkWords words body) ∈ commandActs) : (s.runCommand code words body).bus = s.bus :=
  onCommand_bus s _ fun t => commandActs_bus t _ h

theorem endSnapshot_bus (s : State) : s.endSnapshot.bus = s.bus := by
  obtain e | ⟨e, -⟩ := endSnapshot_cases s <;> rw [e]
  · exact actOnCommand_of (P := fun t => t.bus = s.bus) (fun _ _ => rfl) (commandActs_bus s.takeSnapshot)
  · rfl

theorem portFor_bus {r : Requester} (h : s.portFor r = some t) : t.bus = s.bus := by
  obtain ⟨-, rfl⟩ := portFor_some h
  exact bus_ite ((State.arbitrate_bus _).trans (endSnapshot_bus s)) rfl

/-! ### Later grants and ends of the mailbox commands -/

theorem peekGranule_bus (s : State) (j : PeekJob) (w : Window) (map : List Nat) (g : Nat) (rest : List Nat) :
    (s.peekGranule j w map g rest).bus = s.bus := bus_ite rfl rfl

theorem endPoolTest_bus (s : State) (p : PoolTest) : (s.endPoolTest p).bus = s.bus := bus_ite rfl rfl

theorem testOperation_bus (s : State) (p : PoolTest) (good : Bool) : (s.testOperation p good).bus = s.bus := by
  have filled : ∀ g b, (s.endGrant.fillGranule g b).bus = s.bus :=
    fun _ _ => (fillGranule_placed s.endGrant _ _).bus
  unfold State.testOperation
  split
  · exact (State.await_bus _ _).trans (filled _ _)
  · exact State.await_bus _ _
  · exact (State.await_bus _ _).trans (filled _ _)
  · exact State.await_bus _ _
  · exact bus_ite ((endPoolTest_bus _ _).trans (filled _ _)) ((State.await_bus _ _).trans (filled _ _))

theorem endWrite_bus (s : State) (a b : List Byte) : (s.endWrite a b).bus = s.bus := bus_ite rfl rfl

/-! ### The frame port -/

theorem readHead_bus (s : State) : s.readHead.bus = s.bus := by
  unfold State.readHead
  split
  · exact (readRecord_steady s.endGrant _ _).bus
  · rfl

theorem cutOff_bus (s : State) : s.cutOff.bus = s.bus := by
  unfold State.cutOff
  split
  · exact bus_ite rfl rfl
  · rfl

theorem endIfDone_bus (s : State) : s.endIfDone.bus = s.bus := bus_ite rfl rfl

theorem deliverTo_bus (s : State) (moves : Nat) (n : WinNo) (d : Delivery) : (s.deliverTo moves n d).bus = s.bus := by
  unfold State.deliverTo
  split
  · rename_i t h
    have moved : (recordMoves moves (t.beginRecord n d)).endIfDone.bus = t.bus :=
      (endIfDone_bus _).trans ((beginRecord_steady t n d).placed.trans (recordMoves_placed _ _)).bus
    exact bus_ite rfl (moved.trans (portFor_bus h))
  · rfl

theorem deliver_bus (s : State) (moves : Nat) (d : Delivery) : (s.deliver moves d).bus = s.bus := by
  unfold State.deliver
  split
  · exact (discardRecord_steady s).bus
  · exact deliverTo_bus s moves _ d

/-! ### The rows of the table -/

/-- A command with this outcome puts no cycle on the bus: the pins are as they were. -/
def PutsNoCycle (s : State) (o : Host.Outcome State Fault Refusal) : Prop := ∀ t, o = .next t → t.bus = s.bus

/-- The arbiter's decision at the end of a command leaves the bus to what the command did. -/
theorem putsNoCycle_done (h : t.bus = s.bus) : PutsNoCycle s (done t) := by
  rintro _ ⟨⟩
  exact (State.arbitrate_bus t).trans h

/-- A mailbox command's own row, found in `commandActs`. -/
theorem putsNoCycle_runCommand (s : State) {code : Word} {words : Nat} {body : State → State}
    (h : (code, fun s : State => s.checkWords words body) ∈ commandActs := by simp [commandActs]) :
    PutsNoCycle s (done (s.runCommand code words body)) := putsNoCycle_done (runCommand_bus s h)

/-- A row that takes one share of a timer event first. -/
theorem putsNoCycle_takeShare {start : Option State} (h : ∀ t, start = some t → Steady s t) (d : Duty)
    (p : State → Bool) : PutsNoCycle s (done (s.takeShare start d p)) :=
  putsNoCycle_done (takeShare_steady s start d p h).bus

theorem execPowerOn_putsNoCycle (s : State) : PutsNoCycle s (execPowerOn s) := putsNoCycle_done (powerUp_bus s)

theorem execResetAssert_putsNoCycle (s : State) : PutsNoCycle s (execResetAssert s) :=
  putsNoCycle_done (bus_ite rfl (by simp))

theorem execBypassAssert_putsNoCycle (s : State) : PutsNoCycle s (execBypassAssert s) :=
  putsNoCycle_done (bus_ite rfl (by simp))

theorem execBypassRelease_putsNoCycle (st : Straps) (s : State) : PutsNoCycle s (execBypassRelease st s) :=
  putsNoCycle_done (bus_ite (afterPins_bus (s.setStrapPins st) _) rfl)

theorem execResetRelease_putsNoCycle (st : Straps) (s : State) : PutsNoCycle s (execResetRelease st s) :=
  putsNoCycle_done (bus_ite (afterPins_bus (s.setStrapPins st) _) rfl)

theorem execPoolTestEnd_putsNoCycle (failed : Bool) (s : State) : PutsNoCycle s (execPoolTestEnd failed s) :=
  putsNoCycle_done (bus_ite rfl (bus_ite (finishStartUp_bus (s.testOutcome failed)) rfl))

theorem execEndOfStartUp_putsNoCycle (s : State) : PutsNoCycle s (execEndOfStartUp s) :=
  putsNoCycle_done (bus_ite rfl (bus_ite (finishStartUp_bus s) rfl))

theorem execDrainStep_putsNoCycle (s : State) : PutsNoCycle s (execDrainStep s) := by
  refine putsNoCycle_done ?_
  split
  · rename_i t h
    split
    · exact ((drain_placed t _).bus).trans (portFor_bus h)
    · exact portFor_bus h
  · rfl

theorem execTestMinor1_putsNoCycle (s : State) : PutsNoCycle s (execTestMinor1 s) :=
  putsNoCycle_done (onCommand_bus s _ fun t => checkWords_bus t 1 test1Body_bus)

theorem execTestMinor2_putsNoCycle (s : State) : PutsNoCycle s (execTestMinor2 s) :=
  putsNoCycle_done (onCommand_bus s _ fun t => checkWords_bus t 1 test2Body_bus)

theorem execGranuleClear_putsNoCycle (s : State) : PutsNoCycle s (execGranuleClear s) := by
  refine putsNoCycle_done (bus_ite ?_ rfl)
  split
  · exact (awaitClearing_bus _ _ _).trans (clearGranule_placed s.endGrant _).bus
  · rfl

theorem execPeekGranuleRead_putsNoCycle (s : State) : PutsNoCycle s (execPeekGranuleRead s) := by
  refine putsNoCycle_done (bus_ite ?_ rfl)
  split
  · split
    · exact peekGranule_bus s _ _ _ _ _
    · rfl
  · rfl

theorem execPoolTestOperation_putsNoCycle (good : Bool) (s : State) :
    PutsNoCycle s (execPoolTestOperation good s) := by
  refine putsNoCycle_done (bus_ite ?_ rfl)
  split
  · exact testOperation_bus s _ good
  · rfl

theorem execProfileWriteEnd_putsNoCycle (b : List Byte) (s : State) : PutsNoCycle s (execProfileWriteEnd b s) := by
  refine putsNoCycle_done ?_
  split
  · exact endWrite_bus s _ b
  · rfl

theorem execProfileWriteTimeout_putsNoCycle (s : State) : PutsNoCycle s (execProfileWriteTimeout s) := by
  refine putsNoCycle_done ?_
  split <;> rfl

theorem execSlotStart_putsNoCycle (s : State) : PutsNoCycle s (execSlotStart s) :=
  putsNoCycle_done (bus_ite rfl (bus_ite (settle_steady s).bus
    (((settle_steady s).trans (toSlotStart_steady _)).trans (settle_steady _)).bus))

theorem execNeighbourDrop_putsNoCycle (node : Nat) (s : State) : PutsNoCycle s (execNeighbourDrop node s) := by
  refine putsNoCycle_done ?_
  split
  · rename_i t h
    split
    · exact (takeShare_steady s (some t) _ _ fun u e => inSlot_steady (h.trans e)).bus
    · rfl
  · rfl

theorem execFrameLost_putsNoCycle (s : State) : PutsNoCycle s (execFrameLost s) := by
  refine putsNoCycle_done ?_
  split
  · rename_i t h
    refine bus_ite ?_ rfl
    split
    · exact ((inSlot_steady h).trans (loseRecord_steady t _)).bus
    · rfl
  · rfl

theorem execCycleStart_putsNoCycle (s : State) : PutsNoCycle s (execCycleStart s) := by
  refine putsNoCycle_done ?_
  split
  · exact ((inCycle_steady ‹_›).trans (settleCycle_steady _)).bus
  · rfl

theorem execSuppressedWrap_putsNoCycle (s : State) : PutsNoCycle s (execSuppressedWrap s) :=
  putsNoCycle_done (bus_ite (toBoundary_steady s).bus rfl)

theorem execStartDelimiter_putsNoCycle (n : Nat) (level : Byte) (s : State) :
    PutsNoCycle s (execStartDelimiter n level s) :=
  putsNoCycle_done ((ticks_placed n s).trans (sampleDelimiter_steady _ level).placed).bus

theorem execBeacon_putsNoCycle (b : List Byte) (s : State) : PutsNoCycle s (execBeacon b s) := by
  refine putsNoCycle_done ?_
  split
  · exact (takeBeacon_steady s.endReception _ _).bus
  · rfl

theorem execRealign_putsNoCycle (b : List Byte) (s : State) : PutsNoCycle s (execRealign b s) := by
  refine putsNoCycle_done ?_
  split
  · exact bus_ite (takeBeacon_steady s.endReception _ _).bus rfl
  · rfl

theorem execDownlinkFrame_putsNoCycle (b : List Byte) (s : State) : PutsNoCycle s (execDownlinkFrame b s) := by
  refine putsNoCycle_done ?_
  split
  · exact (takeDownlink_steady s _ _ _ ‹_›).bus
  · rfl

theorem execBadCrcFrame_putsNoCycle (b : List Byte) (s : State) : PutsNoCycle s (execBadCrcFrame b s) := by
  refine putsNoCycle_done ?_
  split <;> rfl

theorem execForeignFrame_putsNoCycle (b : List Byte) (s : State) : PutsNoCycle s (execForeignFrame b s) := by
  refine putsNoCycle_done ?_
  split <;> rfl

theorem execRecordRead_putsNoCycle (s : State) : PutsNoCycle s (execRecordRead s) := by
  refine putsNoCycle_done ?_
  split
  · exact (readHead_bus _).trans (portFor_bus ‹_›)
  · rfl

theorem execTransmissionEnd_putsNoCycle (s : State) : PutsNoCycle s (execTransmissionEnd s) := by
  refine putsNoCycle_done ?_
  split
  · exact bus_ite rfl rfl
  · rfl

theorem execDeliveryRecord_putsNoCycle (moves : Nat) (s : State) : PutsNoCycle s (execDeliveryRecord moves s) := by
  refine putsNoCycle_done (bus_ite ((endIfDone_bus _).trans (recordMoves_placed moves s).bus) ?_)
  split
  · exact deliver_bus s moves _
  · rfl

theorem execLockRise_putsNoCycle (s : State) : PutsNoCycle s (execLockRise s) :=
  putsNoCycle_done (bus_ite (bus_ite (lockUp_steady s.lockHigh).bus rfl) rfl)

theorem execLockFall_putsNoCycle (s : State) : PutsNoCycle s (execLockFall s) :=
  putsNoCycle_done (bus_ite ((((abandonReads_steady s).trans (releaseTx_steady _)).trans (endReception_steady _)).trans
    (lockLost_steady _)).bus rfl)

/-- No command but C_PORT_WRITE and C_PORT_READ puts a cycle on the bus (R2). -/
theorem exec_putsNoCycle (s : State) (i : Instr) (h : ∀ c, i ≠ .cPortWrite c ∧ i ≠ .cPortRead c) :
    PutsNoCycle s (exec i s) := by
  have cycle := fun t (e : s.inCycle = some t) => inCycle_steady e
  have slot := fun t (e : s.inSlot = some t) => inSlot_steady e
  have phaseEnd := fun t (e : s.inPhaseEnd = some t) => inPhaseEnd_steady e
  cases i with
  | powerOn => exact execPowerOn_putsNoCycle s
  | resetAssert => exact execResetAssert_putsNoCycle s
  | bypassAssert => exact execBypassAssert_putsNoCycle s
  | bypassRelease st => exact execBypassRelease_putsNoCycle st s
  | resetRelease st => exact execResetRelease_putsNoCycle st s
  | poolTestEnd failed => exact execPoolTestEnd_putsNoCycle failed s
  | cPortWrite c => exact absurd rfl (h c).1
  | cPortRead c => exact absurd rfl (h c).2
  | drainStep => exact execDrainStep_putsNoCycle s
  | unknownCommand => exact putsNoCycle_done (onCommand_bus s _ fun _ => rfl)
  | setw | enbw | disw | delw | qryw | push | peek | setid | join | leave | hold
  | resume | nbrs | cntr | alrt | psav | plod | rset =>
    exact putsNoCycle_runCommand s
  | testMinor1 => exact execTestMinor1_putsNoCycle s
  | testMinor2 => exact execTestMinor2_putsNoCycle s
  | granuleClear => exact execGranuleClear_putsNoCycle s
  | peekGranuleRead => exact execPeekGranuleRead_putsNoCycle s
  | poolTestOperation good => exact execPoolTestOperation_putsNoCycle good s
  | profileWriteEnd readBack => exact execProfileWriteEnd_putsNoCycle readBack s
  | profileWriteTimeout => exact execProfileWriteTimeout_putsNoCycle s
  | slotStart => exact execSlotStart_putsNoCycle s
  | neighbourDrop node => exact execNeighbourDrop_putsNoCycle node s
  | holdoverExpiry | joinUnanswered | joinWaitExpiry => exact putsNoCycle_takeShare phaseEnd _ _
  | frameLost => exact execFrameLost_putsNoCycle s
  | recordRead => exact execRecordRead_putsNoCycle s
  | frameCutOff => exact putsNoCycle_done (cutOff_bus s)
  | transmissionEnd => exact execTransmissionEnd_putsNoCycle s
  | cycleStart => exact execCycleStart_putsNoCycle s
  | suppressedWrap => exact execSuppressedWrap_putsNoCycle s
  | refresh _ | ageOut | windowExpiry _ | refillExpiry _ | stagingLimit _ | autoClear =>
    exact putsNoCycle_takeShare cycle _ _
  | beacon bytes => exact execBeacon_putsNoCycle bytes s
  | realign bytes => exact execRealign_putsNoCycle bytes s
  | downlinkFrame bytes => exact execDownlinkFrame_putsNoCycle bytes s
  | badCrcFrame bytes => exact execBadCrcFrame_putsNoCycle bytes s
  | foreignFrame bytes => exact execForeignFrame_putsNoCycle bytes s
  | deliveryRecord moves => exact execDeliveryRecord_putsNoCycle moves s
  | lockRise => exact execLockRise_putsNoCycle s
  | lockFall => exact execLockFall_putsNoCycle s
  | startingTimeout => exact putsNoCycle_takeShare slot _ _
  | endOfStartUp => exact execEndOfStartUp_putsNoCycle s
  | startDelimiter ticks level => exact execStartDelimiter_putsNoCycle ticks level s

/-! ### The two rows of the C-port -/

/-- A write cycle goes to the M-port as presented; capture and release-on-write leave the pins so (R2, R12, R18). -/
theorem exec_cPortWrite_bus (c : BusCycle) (s : State) :
    ∃ t : State, exec (.cPortWrite c) s = .next t.arbitrate ∧ t.bus = some (passedPins c) :=
  ⟨_, rfl, bus_ite (s := s.setBus (passedPins c)) rfl (tapWrite_placed _ c).bus⟩

/-- A read cycle is carried as a read; learning leaves the pins so (R3, R19). -/
theorem exec_cPortRead_bus (c : BusCycle) (s : State) :
    ∃ t : State, exec (.cPortRead c) s = .next t.arbitrate ∧ t.bus = some (s.readPins c) :=
  ⟨_, rfl, bus_ite (s := s.setBus (s.readPins c)) rfl (learn_placed _ c).bus⟩

/-- Settles O6: the two rows of the C-port carry their cycle, and every other row leaves the bus pins as they were. -/
theorem busCarriesEveryCycle : Obligations.BusCarriesEveryCycle := by
  intro s i
  refine ⟨?write, ?read, exec_putsNoCycle s i⟩
  case write =>
    rintro c rfl
    obtain ⟨t, e, b⟩ := exec_cPortWrite_bus c s
    exact ⟨t, _, e, b, rfl, rfl⟩
  case read =>
    rintro c rfl
    obtain ⟨t, e, b⟩ := exec_cPortRead_bus c s
    exact ⟨t, _, e, b, rfl, rfl⟩

end Sys2Proof.Machine

end
end

section
/-! PROOFS. DELW (R34). First the rules that every mailbox command with parameters shares: a command that is due takes its
snapshot, passes the parity check of its block, and then acts on the words of the window 0 image (R146 to R149). Then the
three ways DELW's act can go. -/

section

set_option Elab.async false


namespace Sys2Proof.Machine

variable {s : State}

/-! ### The snapshot of a command that is due -/

/-- A place of the snapshot: the word of the image with its flag (R146). -/
theorem snapped_snapshot_getD (s : State) (w : Work) {k : Nat} (lo : 1 ≤ k) (hi : k ≤ 63) :
    (s.snapped w).mbox.snapshot.getD (k - 1) (0, false) = (s.win0Word k, s.win0.bad.getD k false) := by
  have e : k - 1 + 1 = k := by omega
  have b : k - 1 < 63 := by omega
  simp [State.snapped, List.getD_eq_getElem?_getD, b, e]

theorem snapped_paramNat (s : State) (w : Work) {k : Nat} (lo : 1 ≤ k) (hi : k ≤ 63) :
    (s.snapped w).paramNat k = s.word k := by
  rw [State.paramNat, State.param, snapped_snapshot_getD s w lo hi, State.word]

theorem snapped_paramBad (s : State) (w : Work) {k : Nat} (lo : 1 ≤ k) (hi : k ≤ 63) :
    (s.snapped w).paramBad k = s.win0.bad.getD k false := by
  rw [State.paramBad, snapped_snapshot_getD s w lo hi]

@[simp] theorem snapped_win (s : State) (w : Work) (n : WinNo) : (s.snapped w).win n = s.win n := rfl

/-- A command that is due comes to its checks with its snapshot taken (R38, R146). -/
theorem atChecks_due {code : Word} (due : CommandDue code s) : s.atChecks = some (s.snapped .checks) := by
  obtain ⟨busy, -, work, port⟩ := due
  have granted : s.snapshotGranted = true := by simp [State.snapshotGranted, busy, work, port]
  rw [State.atChecks, if_pos granted]
  rfl

/-- Parameter words without a bad flag pass the parity check (R147). -/
theorem checkWords_good {words : Nat} (good : GoodParams words s) (hi : words ≤ 63) (w : Work) (body : State → State) :
    (s.snapped w).checkWords words body = body (s.snapped w) := by
  have none_bad : (((List.range words).map (· + 1)).find? fun k => (s.snapped w).paramBad k) = none := by
    rw [List.find?_eq_none]
    intro k hk
    obtain ⟨i, in_range, rfl⟩ := List.mem_map.1 hk
    have lt : i < words := List.mem_range.1 in_range
    rw [snapped_paramBad s w (by omega) (by omega), good (i + 1) (by omega) (by omega)]
    exact Bool.false_ne_true
  simp only [State.checkWords, none_bad]

/-- The row of a command that is due, with a good parameter block: its own conditions and effect after its snapshot. -/
theorem runCommand_due {code : Word} {words : Nat} (due : CommandDue code s) (good : GoodParams words s)
    (hi : words ≤ 63) (body : State → State) : s.runCommand code words body = body (s.snapped .checks) := by
  have at_checks := atChecks_due due
  obtain ⟨-, code_eq, -, -⟩ := due
  have named : decide ((s.snapped .checks).mbox.code = code) = true := decide_eq_true code_eq
  simp only [State.runCommand, State.onCommand, at_checks, named, if_true]
  exact checkWords_good good hi .checks body

/-! ### The window a command names -/

theorem winNo_val {n : WinNo} (h : n ≠ 0) : winNo? n.val = some n := by
  have lo : 1 ≤ n.val := Nat.one_le_iff_ne_zero.2 (Fin.val_ne_zero_iff.2 h)
  rw [winNo?, dif_pos n.isLt, if_pos lo]

/-- Parameter word 1 of the image names the window the command acts on (R154). -/
theorem onWindow_snapped {n : WinNo} (h : n ≠ 0) (named : s.word 1 = n.val) (w : Work) (f : WinNo → State) :
    (s.snapped w).onWindow f = f n := by
  have e : (s.snapped w).winParam = some n := by
    rw [State.winParam, snapped_paramNat s w (by omega) (by omega), named, winNo_val h]
  simp only [State.onWindow, e]

/-! ### Completion -/

/-- MAILBOX_DONE is bit 11, and raising it leaves the served-cycle count (R149, R164). -/
theorem complete_eq_completed (s : State) (r : ResultCode) (d : List Byte) : s.complete r d = s.completed r d := rfl

/-- Completing after the snapshot is the whole answer (R146, R149). -/
theorem complete_snapped (s : State) (w : Work) (r : ResultCode) (d : List Byte) :
    (s.snapped w).complete r d = s.answered r d := complete_eq_completed (s.snapped w) r d

/-- A count on the bus, low byte first (12). -/
theorem countWord_eq_twoBytes (n : Nat) : countWord n = twoBytes n := by
  have low : lowByte (BitVec.ofNat 16 n) = BitVec.ofNat 8 n := by
    apply BitVec.eq_of_toNat_eq
    simp only [lowByte, BitVec.extractLsb'_toNat, BitVec.toNat_ofNat, Nat.shiftRight_zero]
    omega
  have high : highByte (BitVec.ofNat 16 n) = BitVec.ofNat 8 (n / 256) := by
    apply BitVec.eq_of_toNat_eq
    simp only [highByte, BitVec.extractLsb'_toNat, BitVec.toNat_ofNat, Nat.shiftRight_eq_div_pow]
    omega
  rw [countWord, busWord, low, high, twoBytes]

/-! ### DELW -/

theorem heldBy_of_win {n : WinNo} {w : Window} (h : s.win n = some w) : s.heldBy n = w.mapA ++ w.mapB := by
  rw [State.heldBy, h]
  rfl

/-- What a place gives up: its definition, and its granules to the tail of the free list (R34). -/
theorem freePlace_of_win {n : WinNo} {w : Window} (h : s.win n = some w) :
    s.freePlace n =
      { s with pool := { s.pool with free := s.pool.free ++ (w.mapA ++ w.mapB) }, places := s.places.set n none } := by
  rw [State.freePlace, heldBy_of_win h]

/-- A place is freed before or after the snapshot alike. -/
theorem snapped_freePlace (s : State) (w : Work) (n : WinNo) : (s.snapped w).freePlace n = (s.freePlace n).snapped w := rfl

/-- DELW as due, its parameter block good, naming window `n` (R146, R147, R154). -/
structure DelwDue (s : State) (n : WinNo) : Prop where
  due : CommandDue 0xA104 s
  good : GoodParams 1 s
  place : n ≠ 0
  named : s.word 1 = n.val

variable {n : WinNo}

/-- DELW does its act after its snapshot; the arbiter then decides (R38). -/
theorem DelwDue.exec_eq (h : DelwDue s n) : exec .delw s = .next (s.snapped .checks).delwBody.arbitrate :=
  congrArg done (runCommand_due h.due h.good (by omega) State.delwBody)

/-- DELW of an IDLE window frees its place and answers with the free count (R34). -/
theorem DelwDue.delwBody_idle (h : DelwDue s n) {w : Window} (hw : s.win n = some w) (idle : w.state = .idle) :
    (s.snapped .checks).delwBody = (s.freePlace n).answered .ok (twoBytes (s.freePlace n).pool.free.length) := by
  rw [State.delwBody, onWindow_snapped h.place h.named]
  simp only [snapped_win, hw, if_pos idle, snapped_freePlace, countWord_eq_twoBytes]
  exact complete_snapped (s.freePlace n) .checks .ok _

/-- DELW of a window in another state is refused (R34). -/
theorem DelwDue.delwBody_not_idle (h : DelwDue s n) {w : Window} (hw : s.win n = some w) (other : w.state ≠ .idle) :
    (s.snapped .checks).delwBody = s.answered .windowState [] := by
  rw [State.delwBody, onWindow_snapped h.place h.named]
  simp only [snapped_win, hw, if_neg other]
  exact complete_snapped s .checks .windowState []

/-- DELW of a FREE place is refused (R34). -/
theorem DelwDue.delwBody_free (h : DelwDue s n) (hw : s.win n = none) :
    (s.snapped .checks).delwBody = s.answered .windowState [] := by
  rw [State.delwBody, onWindow_snapped h.place h.named]
  simp only [snapped_win, hw]
  exact complete_snapped s .checks .windowState []

/-- Settles O26: by what the place named by parameter word 1 holds: an IDLE window, another window, none. -/
theorem delwFreesThePlace : Obligations.DelwFreesThePlace := by
  intro s n due good place named
  have h : DelwDue s n := ⟨due, good, place, named⟩
  refine ⟨fun w hw idle => ?idle, fun w hw other => ?other, fun hw => ?free⟩
  case idle => rw [h.exec_eq, h.delwBody_idle hw idle, freePlace_of_win hw]
  case other => rw [h.exec_eq, h.delwBody_not_idle hw other]
  case free => rw [h.exec_eq, h.delwBody_free hw]

end Sys2Proof.Machine

end
end

section
/-! PROOFS. PUSH (R55). PUSH gives its changes while the command stands at its checks, and the statement gives them with the
command at no work: so first every step of the journal that a change can bring takes its course whatever work the command
stands at. Then the three ways PUSH's act can go. -/

section

set_option Elab.async false


namespace Sys2Proof.Machine

variable {s : State} {n : WinNo} {w : Window}

/-! ### The journal does not read the command's work -/

/-- A scan in progress, with the command at this work. -/
def ScanState.await (a : ScanState) (k : Work) : ScanState := { a with s := a.s.await k }

@[simp] theorem ScanState.await_s (a : ScanState) (k : Work) : (a.await k).s = a.s.await k := rfl
@[simp] theorem ScanState.await_again (a : ScanState) (k : Work) : (a.await k).again = a.again := rfl

theorem offer_await (s : State) (k : Work) (n : WinNo) (g : Nat) :
    (s.await k).offer n g = ((s.offer n g).1.await k, (s.offer n g).2) := by
  have entries : (s.await k).journal = s.journal := rfl
  have window : (s.await k).win n = s.win n := rfl
  rw [State.offer, State.offer, entries, window]
  cases extendEntries s.journal.entries n g with
  | some r =>
    obtain ⟨l, merged⟩ := r
    cases merged <;> rfl
  | none =>
    by_cases room : s.journal.entries.length < Config.journalRoom
    · simp only [if_pos room]
      rfl
    · simp only [if_neg room]
      cases s.win n with
      | none => rfl
      | some w =>
        cases known : w.pub.backlog <;> simp only [known] <;> rfl

theorem scanGranule_await (n : WinNo) (k : Work) (r : ScanState × Bool) (g : Nat) :
    scanGranule n (r.1.await k, r.2) g = ((scanGranule n r g).1.await k, (scanGranule n r g).2) := by
  have same : (r.1.await k).s.offerable n g = r.1.s.offerable n g := rfl
  have offered : (r.1.await k).s.offer n g = ((r.1.s.offer n g).1.await k, (r.1.s.offer n g).2) :=
    offer_await r.1.s k n g
  rw [scanGranule, scanGranule, same]
  by_cases h : r.1.s.offerable n g = true
  · simp only [if_pos h, offered]
    rfl
  · simp only [if_neg h]

theorem scanWindow_await (a : ScanState) (k : Work) (n : WinNo) :
    scanWindow (a.await k) n = (scanWindow a n).await k := by
  have window : (a.await k).s.liveWin n = a.s.liveWin n := rfl
  rw [scanWindow, scanWindow, window]
  cases a.s.liveWin n with
  | none => rfl
  | some w =>
    have visited : (List.range w.granules).foldl (scanGranule n) (a.await k, false) = _ :=
      List.foldl_hom (fun r : ScanState × Bool => (r.1.await k, r.2)) (fun r g => scanGranule_await n k r g)
        (init := (a, false))
    simp only [visited]
    by_cases backlog : w.pub.backlog = true
    · simp only [if_pos backlog]
      split <;> rfl
    · simp only [if_neg backlog]

theorem scanOnce_await (s : State) (k : Work) : (s.await k).scanOnce = s.scanOnce.await k :=
  List.foldl_hom (fun a : ScanState => a.await k) (fun a n => scanWindow_await a k n)
    (init := { s := s, merged := false, again := false })

theorem scanFuel_await (fuel : Nat) (s : State) (k : Work) : scanFuel fuel (s.await k) = (scanFuel fuel s).await k := by
  induction fuel generalizing s with
  | zero => rfl
  | succ fuel ih =>
    simp only [scanFuel, scanOnce_await, ScanState.await_again, ScanState.await_s]
    split
    · exact ih s.scanOnce.s
    · rfl

theorem backlogScan_await (s : State) (k : Work) : (s.await k).backlogScan = s.backlogScan.await k :=
  scanFuel_await (s.wantedCount + 1) s k

theorem queueRequest_await (s : State) (k : Work) (n : WinNo) (g : Nat) :
    (s.await k).queueRequest n g = (s.queueRequest n g).await k := by
  simp only [State.queueRequest, offer_await, backlogScan_await]
  split <;> rfl

/-- A granule's change is the same whatever work the command stands at (R52). -/
theorem change_await (s : State) (k : Work) (n : WinNo) (g : Nat) : (s.await k).change n g = (s.change n g).await k := by
  have window : (s.await k).liveWin n = s.liveWin n := rfl
  rw [State.change, State.change, window]
  cases s.liveWin n with
  | none => rfl
  | some w =>
    by_cases publish : w.isPublish = true
    · simp only [if_pos publish]
      cases w.granState g with
      | idle | wanted =>
        dsimp only
        split
        · exact queueRequest_await (s.setPlace n (some (w.setGran g .wanted))) k n g
        · rfl
      | waiting | inFlight | inFlightAgain => rfl
    · simp only [if_neg publish]

/-- So are the changes of a list of granules. -/
theorem changeAll_await (s : State) (k : Work) (n : WinNo) (gs : List Nat) :
    (s.await k).changeAll n gs = (s.changeAll n gs).await k :=
  List.foldl_hom (fun t : State => t.await k) (fun t g => change_await t k n g)

/-- Completion ends the command's work, whichever it was (R149). -/
theorem complete_await (s : State) (k : Work) (r : ResultCode) (d : List Byte) : (s.await k).complete r d = s.completed r d :=
  complete_eq_completed s r d

/-- The journal's steps leave a window's state, countdown, revision and flags (R53, R55). -/
theorem JournalOnly.pub_kept {t : State} (h : JournalOnly s t) (hw : s.win n = some w) :
    ∃ v, t.win n = some v ∧ v.pub.countdown = w.pub.countdown ∧ v.pub.revision = w.pub.revision ∧
      v.pub.known = w.pub.known ∧ v.pub.dirty = w.pub.dirty ∧ v.pub.filled = w.pub.filled ∧ v.state = w.state := by
  obtain ⟨states, backlog, -, moved⟩ := h.kept n w hw
  exact ⟨_, moved, rfl, rfl, rfl, rfl, rfl, rfl⟩

/-! ### PUSH -/

/-- PUSH does its act after its snapshot; the arbiter then decides (R38, R146). -/
theorem exec_push_due (due : CommandDue 0xA106 s) (good : GoodParams 1 s) :
    exec .push s = .next (s.snapped .checks).pushBody.arbitrate :=
  congrArg done (runCommand_due due good (by omega) State.pushBody)

/-- PUSH of a LIVE PUBLISH window gives each sendable granule a change and answers with their number (R55). -/
theorem pushBody_publish (place : n ≠ 0) (named : s.word 1 = n.val) (hw : s.win n = some w) (live : w.state = .live)
    (publish : w.isPublish = true) :
    (s.snapped .checks).pushBody =
      ((s.snapped .none).changeAll n w.sendable).completed .ok (twoBytes w.sendable.length) := by
  have window : (s.snapped .checks).liveWin n = some w := liveWin_of_live (s := s.snapped .checks) hw live
  have changes : (s.snapped .checks).changeAll n w.sendable = _ := changeAll_await (s.snapped .none) .checks n w.sendable
  rw [State.pushBody, onWindow_snapped place named]
  simp only [window, if_pos publish, changes, complete_await, countWord_eq_twoBytes]

/-- PUSH of a LIVE window of another kind names its word 1 (R55, R154). -/
theorem pushBody_not_publish (place : n ≠ 0) (named : s.word 1 = n.val) (hw : s.win n = some w) (live : w.state = .live)
    (other : w.isPublish = false) : (s.snapped .checks).pushBody = s.answered .badParam [1] := by
  have window : (s.snapped .checks).liveWin n = some w := liveWin_of_live (s := s.snapped .checks) hw live
  rw [State.pushBody, onWindow_snapped place named]
  simp only [window, other, Bool.false_eq_true, if_false]
  exact complete_snapped s .checks .badParam [1]

/-- PUSH of a place without a LIVE window is refused (R55, R154). -/
theorem pushBody_not_live (place : n ≠ 0) (named : s.word 1 = n.val) (none_live : s.liveWin n = none) :
    (s.snapped .checks).pushBody = s.answered .windowState [] := by
  have window : (s.snapped .checks).liveWin n = none := none_live
  rw [State.pushBody, onWindow_snapped place named]
  simp only [window]
  exact complete_snapped s .checks .windowState []

/-- A place whose window, if it has one, is not LIVE. -/
theorem liveWin_eq_none (h : ∀ w, s.win n = some w → w.state ≠ .live) : s.liveWin n = none := by
  cases hl : s.liveWin n with
  | none => rfl
  | some w =>
    obtain ⟨hw, live⟩ := win_of_liveWin hl
    exact absurd live (h w hw)

/-- Settles O27: by what the place named by parameter word 1 holds: a LIVE PUBLISH window, whose changes are steps of the
journal alone, a LIVE window of another kind, no LIVE window. -/
theorem pushGivesChanges : Obligations.PushGivesChanges := by
  intro s n due good place named
  rw [exec_push_due due good]
  refine ⟨fun w hw live publish => ?publish, fun w hw live other => ?other, fun not_live => ?not_live⟩
  case publish =>
    obtain ⟨v, at_n, countdown, revision, known, dirty, filled, state⟩ :=
      (changeAll_quiet (s.snapped .none) n w.sendable).pub_kept (n := n) hw
    exact ⟨congrArg done (pushBody_publish place named hw live publish),
      (changeAll_steady (s.snapped .none) n w.sendable).pool,
      v, at_n, countdown, revision, known, dirty, filled, state.trans live⟩
  case other => rw [pushBody_not_publish place named hw live other]
  case not_live => rw [pushBody_not_live place named (liveWin_eq_none not_live)]

end Sys2Proof.Machine

end
end
